-- ==== Sys2Proof/Word.lean ====
section
/-! DEFINITION. The word types of 00_scope.md R11: every quantity is an unsigned integer, a boolean or a name. -/

namespace Sys2Proof

/-- A byte: 8 bits, an unsigned integer in 0..255 (R11). -/
abbrev Byte := BitVec 8

/-- A `u16`: an unsigned integer in 0..65535 (R11). -/
abbrev U16 := BitVec 16

/-- Eight bytes numbered by wire offset, offset 0 first (R11, R90). -/
abbrev Bytes8 := Vector Byte 8

/-- A zero-based channel index, one of 0, 1, 2 (R13). -/
abbrev ChannelIndex := Fin 3

/-- A slot index of the ring buffer, 0 to 15 (R60). -/
abbrev SlotIndex := Fin 16

end Sys2Proof
end

