-- ==== Sys2Proof/Config.lean ====
section
/-! DEFINITION. The implementation parameters of 00_scope.md R8, their constraints R9, the reference instantiation R10,
and the free values: constants without a body, of which no proof can learn a value. -/

namespace Sys2Proof

/-- The seven error kinds of R13 and R280. -/
inductive ErrorKind where
  | malformedFrame | checksumMismatch | invalidChannel | invalidSignalForOperation
  | unreadableSample | bufferFull | transmitTimeout
deriving DecidableEq, Repr

/-- The outcome of one transmission, the port `tx_result` (R15, R258). -/
inductive TxResult where
  | sent | timeout
deriving DecidableEq, Repr, Inhabited

/-- The two quantities of the Signal Access collaborator (R259). -/
inductive Quantity where
  | current | temperature
deriving DecidableEq, Repr

/-- What a Signal Access setter answers: false, or true with the PWM values (0..=1023) its getters return from then on (R259:
the collaborator's state changes only in setters; entry 5). -/
inductive SetterAnswer where
  | refused
  | stored (current temperature : Vector (Fin 1024) 3)
deriving DecidableEq, Repr, Inhabited

/-- The three fields ISR_ERROR_FIELDS gives an error response sent from interrupt context (R145). -/
structure ErrorFields where
  channel : Byte
  signal  : Byte
  value   : U16
deriving DecidableEq, Repr, Inhabited

/-- The parameter DUTY_NARROW above 65535 (R213): the default `v mod 65536`, or any other function, left open. -/
inductive DutyNarrow where
  | modulo | unstated
deriving DecidableEq, Repr

/-- The parameter ISR_ERROR_FIELDS (R145): the default (0, 0, 0), or any other function, left open. -/
inductive IsrErrorFields where
  | zero | unstated
deriving DecidableEq, Repr

/-- The parameter GET_OK_COMMAND (R8, R256). -/
inductive GetOkCommand where
  | channelCode | statusOk
deriving DecidableEq, Repr

/-- The parameters of R8, in its order. TX_TIMEOUT, which no rule reads (R336), is `Config.txTimeout`. -/
structure Params where
  startMarker     : Byte
  endMarker       : Byte
  cmdGet          : Byte
  cmdSet          : Byte
  cmdPing         : Byte
  statusOk        : Byte
  statusError     : Byte
  sigPwmInput     : Byte
  sigCurrent      : Byte
  sigTemperature  : Byte
  sigSystem       : Byte
  ch1             : Byte
  ch2             : Byte
  ch3             : Byte
  chSystem        : Byte
  fwVersion       : U16
  counterMax      : Nat
  valueLowFirst   : Bool
  dutyNarrow      : DutyNarrow
  isrErrorFields  : IsrErrorFields
  getOkCommand    : GetOkCommand
deriving DecidableEq, Repr

/-- The constraints R9 (a) to (g) on every instantiation. -/
abbrev Params.constraints (p : Params) : Prop :=
  (p.cmdGet ≠ p.cmdSet ∧ p.cmdGet ≠ p.cmdPing ∧ p.cmdSet ≠ p.cmdPing) ∧
  (p.sigPwmInput ≠ p.sigCurrent ∧ p.sigPwmInput ≠ p.sigTemperature ∧ p.sigPwmInput ≠ p.sigSystem ∧
    p.sigCurrent ≠ p.sigTemperature ∧ p.sigCurrent ≠ p.sigSystem ∧ p.sigTemperature ≠ p.sigSystem) ∧
  p.statusOk ≠ p.statusError ∧
  (p.ch2.toNat = p.ch1.toNat + 1 ∧ p.ch3.toNat = p.ch1.toNat + 2) ∧
  (p.chSystem ≠ p.ch1 ∧ p.chSystem ≠ p.ch2 ∧ p.chSystem ≠ p.ch3) ∧
  (p.getOkCommand = .channelCode → p.statusError ≠ p.ch1 ∧ p.statusError ≠ p.ch2 ∧ p.statusError ≠ p.ch3) ∧
  1 ≤ p.counterMax

/-- Whether an instantiation keeps R9. -/
def Params.valid (p : Params) : Bool := decide p.constraints

/-- The reference instantiation R10, the spec's own choice (DESIGN CHOICE, entry 1). -/
def Params.reference : Params where
  startMarker     := 0xAA#8
  endMarker       := 0x55#8
  cmdGet          := 0x01#8
  cmdSet          := 0x02#8
  cmdPing         := 0x03#8
  statusOk        := 0x00#8
  statusError     := 0xFF#8
  sigPwmInput     := 0x01#8
  sigCurrent      := 0x02#8
  sigTemperature  := 0x03#8
  sigSystem       := 0x04#8
  ch1             := 0x31#8
  ch2             := 0x32#8
  ch3             := 0x33#8
  chSystem        := 0x53#8
  fwVersion       := 0x0100#16
  counterMax      := 65535
  valueLowFirst   := true
  dutyNarrow      := .modulo
  isrErrorFields  := .zero
  getOkCommand    := .channelCode

/-- TX_TIMEOUT (R8, R336, decision D39): a parameter with no default, read by no rule. -/
opaque Config.txTimeout : Nat

/-- DUTY_NARROW above 65535 when it is not the default (R213, U11): free (entry 2). -/
opaque Config.dutyNarrowHigh : Nat → U16

/-- DUTY with period 0, which R204 excludes and no rule evaluates: free, by pulse width (entry 17). -/
opaque Config.dutyPeriodZero : Nat → U16

/-- ISR_ERROR_FIELDS when it is not the default, by error kind and the eight raw bytes (R145, D17): free (entry 2). -/
opaque Config.isrErrorFields : ErrorKind → Bytes8 → ErrorFields

/-- The outcome of the k-th draw when the environment's list of outcomes has ended (R258, U12): free (entry 4). -/
opaque Config.drawnTxResult : Nat → TxResult

/-- The answer of a Signal Access setter at the k-th draw, when the environment's list of answers has ended (R259, U13):
free (entry 5). -/
opaque Config.drawnSetterAnswer : Nat → Quantity → ChannelIndex → U16 → SetterAnswer

end Sys2Proof
end

