-- ==== Sys2Proof/Syntax.lean ====
section
/-! DEFINITION. The frame record (R13, R90), the ports and operand bytes that select an operation (R103), and the
instruction type: one constructor per row of spec/opcode_table.json, in the table's order. -/

namespace Sys2Proof

/-- The Frame record of R13: the seven logical fields of R90. -/
structure Frame where
  startMark : Byte
  command   : Byte
  channel   : Byte
  signal    : Byte
  value     : U16
  checksum  : Byte
  endMark   : Byte
deriving DecidableEq, Repr

/-- The all-zero Frame of the reset table R43. -/
def Frame.zero : Frame := ⟨0, 0, 0, 0, 0, 0, 0⟩

/-- What selects an operation: the port its event arrives on (R15, R103); for a request, the dispatcher's frame, whose
bits select the row (R99); for a response, the row that is sent (R100). -/
inductive Port where
  | request
  | rspGetOk | rspSetOk | rspPingOk | rspError | rspIsrError
  | rxByte | enqueue | deq | cksum | validate | markersValid | frameValid | encodeFrame | decodeFrame
  | capEdge | wrapsub | duty | sampleTake | initRx | initFifo | initCapture
deriving DecidableEq, Repr

/-- An operation as it is delivered: its port and its operand bytes (R103; entry 11). -/
structure PortWord where
  port  : Port
  bytes : List Byte
deriving DecidableEq, Repr

/-- The instructions: every row of spec/opcode_table.json. -/
inductive Instr where
  /-- PING, R244. -/
  | ping (f : Frame)
  /-- GET_PWM_INPUT, R245. -/
  | getPwmInput (f : Frame)
  /-- GET_CURRENT, R246. -/
  | getCurrent (f : Frame)
  /-- GET_TEMPERATURE, R247. -/
  | getTemperature (f : Frame)
  /-- SET_CURRENT, R248. -/
  | setCurrent (f : Frame)
  /-- SET_TEMPERATURE, R249. -/
  | setTemperature (f : Frame)
  /-- SET_PWM_INPUT, R250. -/
  | setPwmInput (f : Frame)
  /-- GET_OTHER, R251. -/
  | getOther (f : Frame)
  /-- SET_OTHER, R251. -/
  | setOther (f : Frame)
  /-- UNKNOWN_CMD, R252. -/
  | unknownCmd (f : Frame)
  /-- RSP_GET_OK, R255: the request's channel and signal, and the value read. -/
  | rspGetOk (channel signal : Byte) (value : U16)
  /-- RSP_SET_OK, R255: the request's channel, signal and value. -/
  | rspSetOk (channel signal : Byte) (value : U16)
  /-- RSP_PING_OK, R244. -/
  | rspPingOk
  /-- RSP_ERROR, R254: the request's channel, signal and value. -/
  | rspError (channel signal : Byte) (value : U16)
  /-- RSP_ISR_ERROR, R145: the three fields ISR_ERROR_FIELDS gave. -/
  | rspIsrError (channel signal : Byte) (value : U16)
  /-- RX_BYTE, R141. -/
  | rxByte (b : Byte)
  /-- ENQUEUE, R160. -/
  | enqueue (f : Frame)
  /-- DEQUEUE, R162: its next micro-step, R165. -/
  | dequeue
  /-- CKSUM, R180. -/
  | cksum (command channel signal : Byte) (value : U16)
  /-- VALIDATE, R181. -/
  | validate (f : Frame)
  /-- MARKERS_VALID, R189. -/
  | markersValid (f : Frame)
  /-- FRAME_VALID, R190. -/
  | frameValid (f : Frame)
  /-- ENCODE, R184. -/
  | encodeFrame (f : Frame)
  /-- DECODE, R185. -/
  | decodeFrame (b : Bytes8)
  /-- EDGE, R214. -/
  | edge (c : ChannelIndex) (ts : Nat)
  /-- WRAPSUB, R203. -/
  | wrapsub (a b : Nat)
  /-- DUTY, R204. -/
  | duty (pulseWidth period : Nat)
  /-- SAMPLE_TAKE, R209. -/
  | sampleTake (c : ChannelIndex)
  /-- INIT_RX, R142. -/
  | initRx
  /-- INIT_FIFO, R173. -/
  | initFifo
  /-- INIT_CAPTURE, R210. -/
  | initCapture
deriving DecidableEq, Repr

/-- The port an instruction is selected by. -/
def Instr.port : Instr → Port
  | .ping _ => .request
  | .getPwmInput _ => .request
  | .getCurrent _ => .request
  | .getTemperature _ => .request
  | .setCurrent _ => .request
  | .setTemperature _ => .request
  | .setPwmInput _ => .request
  | .getOther _ => .request
  | .setOther _ => .request
  | .unknownCmd _ => .request
  | .rspGetOk _ _ _ => .rspGetOk
  | .rspSetOk _ _ _ => .rspSetOk
  | .rspPingOk => .rspPingOk
  | .rspError _ _ _ => .rspError
  | .rspIsrError _ _ _ => .rspIsrError
  | .rxByte _ => .rxByte
  | .enqueue _ => .enqueue
  | .dequeue => .deq
  | .cksum _ _ _ _ => .cksum
  | .validate _ => .validate
  | .markersValid _ => .markersValid
  | .frameValid _ => .frameValid
  | .encodeFrame _ => .encodeFrame
  | .decodeFrame _ => .decodeFrame
  | .edge _ _ => .capEdge
  | .wrapsub _ _ => .wrapsub
  | .duty _ _ => .duty
  | .sampleTake _ => .sampleTake
  | .initRx => .initRx
  | .initFifo => .initFifo
  | .initCapture => .initCapture

end Sys2Proof
end

