-- ==== Sys2Proof/Machine/Codec.lean ====
section
/-! DEFINITION. The pure functions on frames: the two value bytes (R62, R97), the XOR checksum and the validity predicates
(42_checksum.md), ENCODE and DECODE, the channel index (R98), and the response frames (44_dispatcher.md section 4). -/

namespace Sys2Proof

/-- `value[7:0]`, "value-low-byte" (R11). -/
def valueLow (v : U16) : Byte := v.extractLsb' 0 8

/-- `value[15:8]`, "value-high-byte" (R11). -/
def valueHigh (v : U16) : Byte := v.extractLsb' 8 8

/-- The number `hi8 * 256 + lo8` as a u16 (R11). -/
def joinBytes (hi lo : Byte) : U16 := hi ++ lo

/-- The byte of `value` at wire offset 4 (R62, R184). -/
def valueByte4 (p : Params) (v : U16) : Byte := if p.valueLowFirst then valueLow v else valueHigh v

/-- The byte of `value` at wire offset 5 (R62, R184). -/
def valueByte5 (p : Params) (v : U16) : Byte := if p.valueLowFirst then valueHigh v else valueLow v

/-- Value assembly from the bytes at offsets 4 and 5 (R97). -/
def assembleValue (p : Params) (b4 b5 : Byte) : U16 := if p.valueLowFirst then joinBytes b5 b4 else joinBytes b4 b5

/-- CKSUM (R180). -/
def cksum (command channel signal : Byte) (value : U16) : Byte :=
  command ^^^ channel ^^^ signal ^^^ valueLow value ^^^ valueHigh value

/-- VALIDATE (R181). -/
def validate (f : Frame) : Bool := f.checksum == cksum f.command f.channel f.signal f.value

/-- MARKERS_VALID (R189). -/
def markersValid (p : Params) (f : Frame) : Bool := f.startMark == p.startMarker && f.endMark == p.endMarker

/-- FRAME_VALID (R190). -/
def frameValid (p : Params) (f : Frame) : Bool := markersValid p f && validate f

/-- ENCODE (R184): field by field, in wire order. -/
def encodeFrame (p : Params) (f : Frame) : Bytes8 :=
  #v[f.startMark, f.command, f.channel, f.signal, valueByte4 p f.value, valueByte5 p f.value, f.checksum, f.endMark]

/-- DECODE (R185): total, checks nothing. -/
def decodeFrame (p : Params) (b : Bytes8) : Frame where
  startMark := b[0]
  command   := b[1]
  channel   := b[2]
  signal    := b[3]
  value     := assembleValue p b[4] b[5]
  checksum  := b[6]
  endMark   := b[7]

/-- ChannelIndex (R98): integer subtraction of the first channel's code, with the range check. -/
def channelIndex (p : Params) (ch : Byte) : Option ChannelIndex :=
  if h : p.ch1.toNat ≤ ch.toNat ∧ ch.toNat ≤ p.ch1.toNat + 2 then some ⟨ch.toNat - p.ch1.toNat, by omega⟩ else none

/-- A frame with both markers and a freshly computed checksum (R100, R183). -/
def sealFrame (p : Params) (command channel signal : Byte) (value : U16) : Frame :=
  ⟨p.startMarker, command, channel, signal, value, cksum command channel signal value, p.endMarker⟩

/-- GetOkCommand (R256). -/
def getOkCommand (p : Params) (channel : Byte) : Byte :=
  match p.getOkCommand with
  | .channelCode => channel
  | .statusOk    => p.statusOk

/-- GetOkResponse (R255). -/
def getOkResponse (p : Params) (channel signal : Byte) (value : U16) : Frame :=
  sealFrame p (getOkCommand p channel) channel signal value

/-- SetOkResponse (R255). -/
def setOkResponse (p : Params) (channel signal : Byte) (value : U16) : Frame :=
  sealFrame p p.statusOk channel signal value

/-- The PING response (R244, R100). -/
def pingOkResponse (p : Params) : Frame := sealFrame p p.statusOk p.chSystem p.sigSystem p.fwVersion

/-- ErrorResponse (R254), and with the fields of ISR_ERROR_FIELDS the response of R145. -/
def errorResponse (p : Params) (channel signal : Byte) (value : U16) : Frame :=
  sealFrame p p.statusError channel signal value

/-- ISR_ERROR_FIELDS (R145): the default (0, 0, 0), or free. -/
def isrErrorFields (p : Params) (k : ErrorKind) (raw : Bytes8) : ErrorFields :=
  match p.isrErrorFields with
  | .zero     => ⟨0, 0, 0⟩
  | .unstated => Config.isrErrorFields k raw

end Sys2Proof
end

