-- ==== Sys2Proof/Machine/Operands.lean ====
section
/-! DEFINITION. Operand forms of the events (R103): numbers as bytes, most significant first, and the capture arithmetic
WRAPSUB (R203), DUTY (R204) and its narrowing (R213). -/

namespace Sys2Proof

/-- `n` in `k` bytes, the most significant first (the operand letters of opcode_table.json; entry 11). -/
def natBytes : Nat → Nat → List Byte
  | 0, _     => []
  | k + 1, n => BitVec.ofNat 8 (n / 256 ^ k) :: natBytes k n

/-- The number a list of bytes spells, the most significant first. -/
def ofBytes (l : List Byte) : Nat := l.foldl (fun n b => n * 256 + b.toNat) 0

/-- How many whole bytes a timestamp operand takes: 2 at COUNTER_MAX = 65535 (entry 11). -/
def stampBytes (p : Params) : Nat := Nat.log2 p.counterMax / 8 + 1

/-- The eight bytes of an operand list, when it has eight. -/
def bytes8? : List Byte → Option Bytes8
  | [b0, b1, b2, b3, b4, b5, b6, b7] => some #v[b0, b1, b2, b3, b4, b5, b6, b7]
  | _ => none

/-- A timestamp lies in 0..COUNTER_MAX (R9 g, R13). -/
def isTimestamp (p : Params) (ts : Nat) : Bool := ts ≤ p.counterMax

/-- WRAPSUB (R203): ticks from `b` forward to `a`, on unbounded naturals. -/
def wrapsub (p : Params) (a b : Nat) : Nat := if b ≤ a then a - b else (p.counterMax + 1 - b) + a

/-- SCALE, the fixed duty scale (R7, R204). -/
def dutyScale : Nat := 100

/-- DUTY_NARROW (R213): the identity up to 65535; above it the parameter. -/
def dutyNarrow (p : Params) (v : Nat) : U16 :=
  if v ≤ 65535 then BitVec.ofNat 16 v
  else
    match p.dutyNarrow with
    | .modulo   => BitVec.ofNat 16 (v % 65536)
    | .unstated => Config.dutyNarrowHigh v

/-- DUTY (R204): exact product, floor of the quotient, narrowed. A period of 0, which R204 excludes, gives a free value
(entry 17). -/
def dutyOf (p : Params) (pulseWidth period : Nat) : U16 :=
  if period = 0 then Config.dutyPeriodZero pulseWidth else dutyNarrow p (pulseWidth * dutyScale / period)

end Sys2Proof
end

