-- ==== Sys2Proof/WellFormed.lean ====
section
/-! DEFINITION. Which instructions are well formed under the parameters: a request's frame selects its row (R99), an
event's operands lie in their types (R103; those of DUTY in the range of a timestamp, entry 29), an interrupt-context error
response has the fields ISR_ERROR_FIELDS can give. -/

namespace Sys2Proof

/-- The command and signal condition of a request row (R99). -/
def Instr.rowHolds (p : Params) : Instr → Bool
  | .ping f           => f.command == p.cmdPing
  | .getPwmInput f    => f.command == p.cmdGet && f.signal == p.sigPwmInput
  | .getCurrent f     => f.command == p.cmdGet && f.signal == p.sigCurrent
  | .getTemperature f => f.command == p.cmdGet && f.signal == p.sigTemperature
  | .setCurrent f     => f.command == p.cmdSet && f.signal == p.sigCurrent
  | .setTemperature f => f.command == p.cmdSet && f.signal == p.sigTemperature
  | .setPwmInput f    => f.command == p.cmdSet && f.signal == p.sigPwmInput
  | .getOther f       => f.command == p.cmdGet &&
      !(f.signal == p.sigPwmInput || f.signal == p.sigCurrent || f.signal == p.sigTemperature)
  | .setOther f       => f.command == p.cmdSet &&
      !(f.signal == p.sigPwmInput || f.signal == p.sigCurrent || f.signal == p.sigTemperature)
  | .unknownCmd f     => !(f.command == p.cmdGet || f.command == p.cmdSet || f.command == p.cmdPing)
  | .rspGetOk _ _ _ | .rspSetOk _ _ _ | .rspPingOk | .rspError _ _ _ | .rspIsrError _ _ _ => true
  | .rxByte _ | .enqueue _ | .dequeue | .cksum _ _ _ _ | .validate _ | .markersValid _ | .frameValid _ => true
  | .encodeFrame _ | .decodeFrame _ | .edge _ _ | .wrapsub _ _ | .duty _ _ | .sampleTake _ => true
  | .initRx | .initFifo | .initCapture => true

/-- Well-formedness of an instruction. R103 gives DUTY natural operands; bounding them by COUNTER_MAX, the range of every
pulse width and period that EDGE measures, is the model's choice (DESIGN CHOICE, entry 29). The meaning of DUTY does not use
the bound. -/
def Instr.wellFormed (p : Params) (i : Instr) : Bool :=
  match i with
  | .ping f | .getPwmInput f | .getCurrent f | .getTemperature f | .setCurrent f | .setTemperature f
  | .setPwmInput f | .getOther f | .setOther f | .unknownCmd f => Sys2Proof.markersValid p f && i.rowHolds p
  | .rspIsrError c g v => p.isrErrorFields == .unstated || (c == 0 && g == 0 && v == 0)
  | .edge _ ts   => isTimestamp p ts
  | .wrapsub a b => isTimestamp p a && isTimestamp p b
  | .duty w q    => isTimestamp p w && isTimestamp p q
  | .rspGetOk _ _ _ | .rspSetOk _ _ _ | .rspPingOk | .rspError _ _ _ => true
  | .rxByte _ | .enqueue _ | .dequeue | .cksum _ _ _ _ | .validate _ | .markersValid _ | .frameValid _ => true
  | .encodeFrame _ | .decodeFrame _ | .sampleTake _ | .initRx | .initFifo | .initCapture => true

end Sys2Proof
end

