-- ==== Sys2Proof/Decode.lean ====
section
/-! DEFINITION. Decoding: a frame to its row of the request map (R99), a port and operand bytes to an instruction (R103),
a word of spec/opcode_table.json to an instruction; and the encoder. Total on any bytes; every refusal has a name. -/

namespace Sys2Proof

/-- Why a port and bytes are no instruction. -/
inductive DecodeError where
  /-- The port takes another number of operand bytes (R102: no other lengths). Safe. -/
  | wrongLength (port : Port)
  /-- A request whose offset 0 or 7 is not its marker (R101 a). Safe. -/
  | badMarkers
  /-- A channel operand outside 0, 1, 2 (R13, R103). Safe. -/
  | badChannelIndex
  /-- The eight bytes are no response of the row named by the port (R100). Safe. -/
  | notThatResponse (port : Port)
deriving DecidableEq, Repr

/-- Which row of the request map R99 a frame selects, by command and then by signal; the rows are tried in table order. -/
def requestOf (p : Params) (f : Frame) : Instr :=
  if f.command = p.cmdPing then .ping f
  else if f.command = p.cmdGet then
    if f.signal = p.sigPwmInput then .getPwmInput f
    else if f.signal = p.sigCurrent then .getCurrent f
    else if f.signal = p.sigTemperature then .getTemperature f
    else .getOther f
  else if f.command = p.cmdSet then
    if f.signal = p.sigCurrent then .setCurrent f
    else if f.signal = p.sigTemperature then .setTemperature f
    else if f.signal = p.sigPwmInput then .setPwmInput f
    else .setOther f
  else .unknownCmd f

/-- A request frame that arrived (R99): the markers, then the row. -/
def decodeRequest (p : Params) (f : Frame) : Except DecodeError Instr :=
  if markersValid p f then .ok (requestOf p f) else .error .badMarkers

/-- A response of the row `port` (R100): the markers and the command byte of the row, and its channel, signal and value.
Its checksum byte selects nothing (the row's mask, R105) and is computed anew when it is sent (R183), but for the two
constant rows, which fix every bit. -/
def decodeResponse (p : Params) (port : Port) (f : Frame) : Except DecodeError Instr :=
  match port with
  | .rspGetOk =>
    if markersValid p f ∧ f.command = getOkCommand p f.channel then .ok (.rspGetOk f.channel f.signal f.value)
    else .error (.notThatResponse port)
  | .rspSetOk =>
    if markersValid p f ∧ f.command = p.statusOk then .ok (.rspSetOk f.channel f.signal f.value)
    else .error (.notThatResponse port)
  | .rspPingOk => if f = pingOkResponse p then .ok .rspPingOk else .error (.notThatResponse port)
  | .rspError =>
    if markersValid p f ∧ f.command = p.statusError then .ok (.rspError f.channel f.signal f.value)
    else .error (.notThatResponse port)
  | .rspIsrError =>
    if f = errorResponse p f.channel f.signal f.value ∧
        (Instr.rspIsrError f.channel f.signal f.value).wellFormed p = true
    then .ok (.rspIsrError f.channel f.signal f.value)
    else .error (.notThatResponse port)
  | _ => .error (.notThatResponse port)

/-- An operation whose operand is eight bytes in wire order. -/
def decodeEight (p : Params) (port : Port) (b : Bytes8) : Except DecodeError Instr :=
  match port with
  | .request      => decodeRequest p (decodeFrame p b)
  | .enqueue      => .ok (.enqueue (decodeFrame p b))
  | .validate     => .ok (.validate (decodeFrame p b))
  | .markersValid => .ok (.markersValid (decodeFrame p b))
  | .frameValid   => .ok (.frameValid (decodeFrame p b))
  | .encodeFrame  => .ok (.encodeFrame (decodeFrame p b))
  | .decodeFrame  => .ok (.decodeFrame b)
  | _             => decodeResponse p port (decodeFrame p b)

/-- EDGE: the channel, then the timestamp. -/
def decodeEdge (p : Params) (bytes : List Byte) : Except DecodeError Instr :=
  match bytes with
  | c :: stamp =>
    if stamp.length = stampBytes p then
      if h : c.toNat < 3 then .ok (.edge ⟨c.toNat, h⟩ (ofBytes stamp)) else .error .badChannelIndex
    else .error (.wrongLength .capEdge)
  | [] => .error (.wrongLength .capEdge)

/-- SAMPLE_TAKE: the channel. -/
def decodeSampleTake (bytes : List Byte) : Except DecodeError Instr :=
  match bytes with
  | [c] => if h : c.toNat < 3 then .ok (.sampleTake ⟨c.toNat, h⟩) else .error .badChannelIndex
  | _   => .error (.wrongLength .sampleTake)

/-- Two timestamp-wide operands, one after the other. Those of WRAPSUB are timestamps (R103). Those of DUTY are naturals, and
that they are delivered in the width of a timestamp is the model's choice (DESIGN CHOICE, entry 29). -/
def decodePair (p : Params) (port : Port) (mk : Nat → Nat → Instr) (bytes : List Byte) : Except DecodeError Instr :=
  if bytes.length = 2 * stampBytes p then
    .ok (mk (ofBytes (bytes.take (stampBytes p))) (ofBytes (bytes.drop (stampBytes p))))
  else .error (.wrongLength port)

/-- CKSUM: command, channel, signal, value high byte, value low byte. -/
def decodeCksum (bytes : List Byte) : Except DecodeError Instr :=
  match bytes with
  | [c, h, g, hi, lo] => .ok (.cksum c h g (joinBytes hi lo))
  | _ => .error (.wrongLength .cksum)

/-- RX_BYTE: the byte. -/
def decodeRxByte (bytes : List Byte) : Except DecodeError Instr :=
  match bytes with
  | [b] => .ok (.rxByte b)
  | _   => .error (.wrongLength .rxByte)

/-- An operation without operands. -/
def decodeBare (port : Port) (i : Instr) (bytes : List Byte) : Except DecodeError Instr :=
  match bytes with
  | [] => .ok i
  | _  => .error (.wrongLength port)

/-- The decoder: a port and its operand bytes (R103, R99, R100). -/
def decode (p : Params) (w : PortWord) : Except DecodeError Instr :=
  match w.port with
  | .rxByte      => decodeRxByte w.bytes
  | .deq         => decodeBare .deq .dequeue w.bytes
  | .cksum       => decodeCksum w.bytes
  | .capEdge     => decodeEdge p w.bytes
  | .wrapsub     => decodePair p .wrapsub .wrapsub w.bytes
  | .duty        => decodePair p .duty .duty w.bytes
  | .sampleTake  => decodeSampleTake w.bytes
  | .initRx      => decodeBare .initRx .initRx w.bytes
  | .initFifo    => decodeBare .initFifo .initFifo w.bytes
  | .initCapture => decodeBare .initCapture .initCapture w.bytes
  | _ =>
    match bytes8? w.bytes with
    | some b => decodeEight p w.port b
    | none   => .error (.wrongLength w.port)

/-- The operand bytes of an instruction, from the encoding tables R90, R100 and R103. -/
def encodeBytes (p : Params) : Instr → List Byte
  | .ping f | .getPwmInput f | .getCurrent f | .getTemperature f | .setCurrent f | .setTemperature f
  | .setPwmInput f | .getOther f | .setOther f | .unknownCmd f => (encodeFrame p f).toList
  | .rspGetOk c g v    => (encodeFrame p (getOkResponse p c g v)).toList
  | .rspSetOk c g v    => (encodeFrame p (setOkResponse p c g v)).toList
  | .rspPingOk         => (encodeFrame p (pingOkResponse p)).toList
  | .rspError c g v    => (encodeFrame p (errorResponse p c g v)).toList
  | .rspIsrError c g v => (encodeFrame p (errorResponse p c g v)).toList
  | .rxByte b          => [b]
  | .enqueue f | .validate f | .markersValid f | .frameValid f | .encodeFrame f => (encodeFrame p f).toList
  | .cksum c h g v     => [c, h, g, valueHigh v, valueLow v]
  | .decodeFrame b     => b.toList
  | .edge c ts         => BitVec.ofNat 8 c.val :: natBytes (stampBytes p) ts
  | .wrapsub a b       => natBytes (stampBytes p) a ++ natBytes (stampBytes p) b
  | .duty w q          => natBytes (stampBytes p) w ++ natBytes (stampBytes p) q
  | .sampleTake c      => [BitVec.ofNat 8 c.val]
  | .dequeue | .initRx | .initFifo | .initCapture => []

/-- The encoder. -/
def encode (p : Params) (i : Instr) : PortWord := ⟨i.port, encodeBytes p i⟩

/-- One row of spec/opcode_table.json: how many bits it has (in whole bytes), its match and mask, and the port of the row. -/
structure TableRow where
  nbits : Nat
  bits  : Nat
  mask  : Nat
  port  : Port
deriving DecidableEq, Repr

/-- spec/opcode_table.json in its order, with the match and mask of the reference instantiation (R105); a row of the request map
keeps only its port, since `requestOf` finds the row. -/
def tableRows : List TableRow :=
  [⟨64, 0xAA03000000000055, 0xFFFF0000000000FF, .request⟩, ⟨64, 0xAA01000100000055, 0xFFFF00FF000000FF, .request⟩,
   ⟨64, 0xAA01000200000055, 0xFFFF00FF000000FF, .request⟩, ⟨64, 0xAA01000300000055, 0xFFFF00FF000000FF, .request⟩,
   ⟨64, 0xAA02000200000055, 0xFFFF00FF000000FF, .request⟩, ⟨64, 0xAA02000300000055, 0xFFFF00FF000000FF, .request⟩,
   ⟨64, 0xAA02000100000055, 0xFFFF00FF000000FF, .request⟩, ⟨64, 0xAA01000000000055, 0xFFFF0000000000FF, .request⟩,
   ⟨64, 0xAA02000000000055, 0xFFFF0000000000FF, .request⟩, ⟨64, 0xAA00000000000055, 0xFF000000000000FF, .request⟩] ++
  [⟨64, 0xAA00000000000055, 0xFF000000000000FF, .rspGetOk⟩, ⟨64, 0xAA00000000000055, 0xFFFF0000000000FF, .rspSetOk⟩,
   ⟨64, 0xAA00530400015655, 0xFFFFFFFFFFFFFFFF, .rspPingOk⟩, ⟨64, 0xAAFF000000000055, 0xFFFF0000000000FF, .rspError⟩,
   ⟨64, 0xAAFF00000000FF55, 0xFFFFFFFFFFFFFFFF, .rspIsrError⟩] ++
  [⟨8, 0, 0, .rxByte⟩, ⟨64, 0, 0, .enqueue⟩, ⟨0, 0, 0, .deq⟩, ⟨40, 0, 0, .cksum⟩, ⟨64, 0, 0, .validate⟩,
   ⟨64, 0, 0, .markersValid⟩, ⟨64, 0, 0, .frameValid⟩, ⟨64, 0, 0, .encodeFrame⟩, ⟨64, 0, 0, .decodeFrame⟩,
   ⟨24, 0, 0, .capEdge⟩, ⟨32, 0, 0, .wrapsub⟩, ⟨32, 0, 0, .duty⟩, ⟨8, 0, 0, .sampleTake⟩,
   ⟨0, 0, 0, .initRx⟩, ⟨0, 0, 0, .initFifo⟩, ⟨0, 0, 0, .initCapture⟩]

/-- Of two masks, whether the second fixes more of the eight bytes. Every mask of the table is made of whole bytes. -/
def maskBytes (mask : Nat) : Nat := (natBytes 8 mask).countP (· == 0xFF#8)

/-- The port of the most specific row of the table that a word matches; of rows equally specific, the first (entry 12). -/
def tablePort (nbits w : Nat) : Option Port :=
  ((tableRows.filter fun r => r.nbits == nbits && Nat.land w r.mask == r.bits).foldl
    (fun best r =>
      match best with
      | none   => some r
      | some q => if maskBytes q.mask < maskBytes r.mask then some r else some q) none).map TableRow.port

/-- A word of the table as a port and operand bytes, offset 0 the most significant byte (R105). -/
def tableWord (nbits w : Nat) : Option PortWord := (tablePort nbits w).map fun port => ⟨port, natBytes (nbits / 8) w⟩

/-- The instruction the decoder reads from a word of spec/opcode_table.json, under the reference instantiation the table
is printed in. -/
def decodeTableWord (nbits w : Nat) : Option Instr :=
  match tableWord nbits w with
  | none   => none
  | some x => (decode Params.reference x).toOption

end Sys2Proof
end

