-- ==== Sys2Proof/Machine/State.lean ====
section
/-! DEFINITION. The machine state: every element of 10_state.md R20, the parameters, the environment's coming choices, and
what the block has put out; the reasons a step stops; and the state after reset (R43). -/

namespace Sys2Proof.Machine

/-- R13, R21. -/
inductive ReceptionState where
  | awaitingStart | accumulating | complete
deriving DecidableEq, Repr

/-- R13, R37. -/
inductive EdgeState where
  | awaitingRising | awaitingFalling
deriving DecidableEq, Repr

/-- R13, R38. -/
inductive Polarity where
  | rising | falling
deriving DecidableEq, Repr

/-- The consumer's position (R39): the DEQUEUE micro-step it performs next, the service of a frame, or none. -/
inductive Phase where
  | idle | deq1 | deq2 | deq3 | deq4 | service
deriving DecidableEq, Repr

/-- `rx.*` (R21 to R24). -/
structure Receiver where
  state : ReceptionState
  index : Nat
  buf   : Bytes8
  armed : Bool
deriving DecidableEq, Repr

/-- `fifo.*` (R25 to R28). -/
structure RingBuffer where
  slot  : Vector Frame 16
  head  : SlotIndex
  tail  : SlotIndex
  count : Nat
deriving DecidableEq, Repr

/-- `cap[c].*` and `cap_polarity[c]` (R31 to R38). -/
structure CapChannel where
  lastRising  : Nat
  haveRising  : Bool
  pulseWidth  : Nat
  period      : Nat
  dutyValue   : U16
  sampleReady : Bool
  edgeState   : EdgeState
  polarity    : Polarity
deriving DecidableEq, Repr

/-- `cons.*` (R39). -/
structure Consumer where
  phase : Phase
  frame : Option Frame
deriving DecidableEq, Repr

/-- The values the getters of the Signal Access collaborator return per light channel (R16, R259; entry 5). -/
structure SignalAccess where
  current     : Vector U16 3
  temperature : Vector U16 3
deriving DecidableEq, Repr

/-- Which engines had their INIT (R45; entry 7). The receiver's own such bit is `rx.armed`. -/
structure EnginesUp where
  fifo : Bool
  cap  : Bool
deriving DecidableEq, Repr

/-- One item of the environment's schedule: an event on a port, or a turn for the consumer (R14, R66; entry 3). -/
inductive InboxItem where
  | event (w : PortWord)
  | turn
deriving DecidableEq, Repr

/-- What the environment will choose: the coming events, transmission outcomes and setter answers, the level of the port
`counter_max`, and how many draws were made (entries 3, 4, 5, 18). -/
structure Environment where
  inbox         : List InboxItem
  txResults     : List TxResult
  setterAnswers : List SetterAnswer
  counterMax    : Nat
  draws         : Nat
deriving DecidableEq, Repr

/-- The `info` of an error report (R296): eight raw bytes, or a frame. -/
inductive ReportInfo where
  | raw (b : Bytes8)
  | frame (f : Frame)
deriving DecidableEq, Repr

/-- One output of the block (R15, R337). -/
inductive Output where
  | txFrame (bytes : Bytes8) (result : TxResult)
  | errReport (kind : ErrorKind) (info : ReportInfo)
  | rxRearm
  | saGet (q : Quantity) (c : ChannelIndex) (answer : U16)
  | saSet (q : Quantity) (c : ChannelIndex) (value : U16) (answer : Bool)
deriving DecidableEq, Repr

/-- The result an operation returned to its caller (R103, column "result"). -/
inductive Reply where
  | none
  | bool (b : Bool)
  | byte (b : Byte)
  | bytes (b : Bytes8)
  | frame (f : Frame)
  | dequeued (f : Option Frame)
  | ticks (n : Nat)
  | duty (d : U16)
  | sample (ready : Bool) (duty : U16)
deriving DecidableEq, Repr

/-- The machine's state. -/
structure State where
  params : Params
  rx     : Receiver
  fifo   : RingBuffer
  cap    : Vector CapChannel 3
  cons   : Consumer
  sa     : SignalAccess
  up     : EnginesUp
  env    : Environment
  reply  : Reply
  trace  : List Output
deriving DecidableEq, Repr

/-- Why a step stops with a fault. The block itself has no fatal condition (R291): each stands for a state that an
invariant of the spec excludes, and no run from reset reaches one (entry 16). -/
inductive Fault where
  /-- RX_BYTE with `rx.state = Complete` between steps, which R21 and C8 exclude. Safe. -/
  | byteInComplete
  /-- RX_BYTE while Accumulating with `rx.index` above 7, outside `rx.buf`, which R22 excludes. Safe. -/
  | bufferIndexOutOfRange
  /-- The consumer in phase Service without a frame, which R241 excludes. Safe. -/
  | serviceWithoutFrame
deriving DecidableEq, Repr

/-- Why a step is refused: an instruction without a meaning, or an event to which the spec gives none
(93_implementation_defined.md, treatment "refuse"). -/
inductive Refusal where
  /-- The instruction has no meaning in this model (raised by exec's arms only). Safe. -/
  | notModelled (mnemonic : String)
  /-- The inbox holds a port and bytes that are no instruction. Safe. -/
  | undecodable (e : DecodeError)
  /-- RX_BYTE while `rx.armed` is false: not enabled (R130, R45). Safe. -/
  | receiverNotArmed
  /-- ENQUEUE or DEQUEUE before INIT_FIFO (U9). Safe. -/
  | fifoNotInitialised
  /-- EDGE or SAMPLE_TAKE before INIT_CAPTURE (U9). Safe. -/
  | captureNotInitialised
  /-- INIT_FIFO while the consumer is inside a DEQUEUE (U8). Safe. -/
  | initFifoInsideDequeue
  /-- DEQUEUE while the consumer services a frame: a second consumer (U7). Safe. -/
  | secondConsumer
  /-- A timestamp above COUNTER_MAX (U10). Safe. -/
  | timestampOutOfRange
  /-- INIT_CAPTURE while the port counter_max reads 0 (U10). Safe. -/
  | counterMaxZero
  /-- The parameters break R9 (U15). Safe. -/
  | invalidParameters
deriving DecidableEq, Repr

/-- `rx.*` after INIT_RX (R43, R142). -/
def Receiver.reset : Receiver := ⟨.awaitingStart, 0, .replicate 8 0, true⟩

/-- `fifo.*` after INIT_FIFO (R43, R173). -/
def RingBuffer.reset : RingBuffer := ⟨.replicate 16 Frame.zero, 0, 0, 0⟩

/-- `cap[c].*` and `cap_polarity[c]` after INIT_CAPTURE (R43, R210). -/
def CapChannel.reset : CapChannel := ⟨0, false, 0, 0, 0, false, .awaitingRising, .rising⟩

/-- `cons.*` at the start of the consumer loop (R43). -/
def Consumer.reset : Consumer := ⟨.idle, none⟩

/-- The Signal Access collaborator before any SET: every getter answers the default value 0 (R259). -/
def SignalAccess.reset : SignalAccess := ⟨.replicate 3 0, .replicate 3 0⟩

/-- Nothing scheduled, nothing drawn, a 16-bit counter (entries 3, 4, 5, 18). -/
def Environment.reset : Environment := ⟨[], [], [], 65535, 0⟩

/-- The machine right after reset: the launch premise of R45, the values of R43 (entries 1, 7, 8). -/
def State.reset : State where
  params := Params.reference
  rx     := Receiver.reset
  fifo   := RingBuffer.reset
  cap    := .replicate 3 CapChannel.reset
  cons   := Consumer.reset
  sa     := SignalAccess.reset
  up     := ⟨true, true⟩
  env    := Environment.reset
  reply  := .none
  trace  := []

end Sys2Proof.Machine
end

