-- ==== Sys2Proof/Machine/Flags.lean ====
section
/-! DEFINITION. Flags and predicates (R42, R174), the index advance (R166), and the edge and polarity toggles (R207). -/

namespace Sys2Proof.Machine

/-- CAPACITY, the number of slots (R7, R25). -/
def capacity : Nat := 16

/-- `Full` (R174). -/
def RingBuffer.full (q : RingBuffer) : Bool := q.count == capacity

/-- `Empty` (R174). -/
def RingBuffer.empty (q : RingBuffer) : Bool := q.count == 0

/-- Advancing an index: 15 is followed by 0 (R166). -/
def advance (i : SlotIndex) : SlotIndex := ⟨(i.val + 1) % 16, by omega⟩

/-- The polarity that agrees with an edge state (R38, R207). -/
def polarityOf : EdgeState → Polarity
  | .awaitingRising  => .rising
  | .awaitingFalling => .falling

/-- The edge state and the programmed polarity of a channel, set together (R207). -/
def CapChannel.awaitEdge (ch : CapChannel) (e : EdgeState) : CapChannel :=
  { ch with edgeState := e, polarity := polarityOf e }

/-- The receiver's single-byte reception consumed, `rx.armed <- false` (R130). -/
def Receiver.disarm (r : Receiver) : Receiver := { r with armed := false }

/-- Reception armed again, `rx.armed <- true` (R139, R142). -/
def Receiver.arm (r : Receiver) : Receiver := { r with armed := true }

/-- Whether the consumer is inside a DEQUEUE, past its test (R173). -/
def Phase.insideDequeue : Phase → Bool
  | .deq2 | .deq3 | .deq4 => true
  | .idle | .deq1 | .service => false

end Sys2Proof.Machine
end

