-- ==== Sys2Proof/Machine/Ops.lean ====
section
/-! DEFINITION. The named operations over the state: the updates, the reads and writes of the two storage arrays (R60), the
outputs, raising an error (R12, R296, R297), a draw of the environment, and the transport sender (R258). -/

namespace Sys2Proof.Machine

/-- A next state, a fault or a refusal. -/
abbrev Result := Host.Outcome State Fault Refusal

/-- Go on with the next state, if there is one. -/
def andThen (r : Result) (k : State → Result) : Result :=
  match r with
  | .next s    => k s
  | .fault e   => .fault e
  | .refused e => .refused e

/-! ### Updates -/

/-- Replace `rx.*`. -/
def State.setRx (s : State) (r : Receiver) : State := { s with rx := r }

/-- Replace `fifo.*`. -/
def State.setFifo (s : State) (q : RingBuffer) : State := { s with fifo := q }

/-- Replace the registers of capture channel `c`, and of no other (R46, R208). -/
def State.setCap (s : State) (c : ChannelIndex) (ch : CapChannel) : State := { s with cap := s.cap.set c ch }

/-- Replace `cons.*`. -/
def State.setCons (s : State) (k : Consumer) : State := { s with cons := k }

/-- Replace the values Signal Access holds. -/
def State.setSa (s : State) (a : SignalAccess) : State := { s with sa := a }

/-- Replace the record of which engines were initialised. -/
def State.setUp (s : State) (u : EnginesUp) : State := { s with up := u }

/-- Replace the environment's coming choices. -/
def State.setEnv (s : State) (e : Environment) : State := { s with env := e }

/-- Return a result to the caller of an operation (R103). -/
def State.setReply (s : State) (r : Reply) : State := { s with reply := r }

/-- Put one output on its port (R12). -/
def State.emit (s : State) (o : Output) : State := { s with trace := s.trace ++ [o] }

/-! ### Storage (R60) -/

/-- Store `b` at cell `i` of `rx.buf` (R12). There is no cell beyond 7. -/
def Receiver.store (r : Receiver) (i : Nat) (b : Byte) : Receiver :=
  if h : i < 8 then { r with buf := r.buf.set i b h } else r

/-- SlotRead (R12). -/
def RingBuffer.slotRead (q : RingBuffer) (i : SlotIndex) : Frame := q.slot[i]

/-- SlotWrite (R12). -/
def RingBuffer.slotWrite (q : RingBuffer) (i : SlotIndex) (f : Frame) : RingBuffer := { q with slot := q.slot.set i f }

/-! ### Errors -/

/-- `raise K(info)` (R12): one report on err_report. Nothing is saved, no context changes, control is not transferred (R296,
R297), so there is nothing to return from (R298): the operation goes on with its next statement. -/
def raise (k : ErrorKind) (info : ReportInfo) (s : State) : State := s.emit (.errReport k info)

/-! ### Draws of the environment -/

/-- The outcome of the next transmission (R258, U12). -/
def nextTxResult (s : State) : TxResult :=
  match s.env.txResults with
  | t :: _ => t
  | []     => Config.drawnTxResult s.env.draws

/-- The environment after a transmission outcome is drawn. -/
def Environment.afterTx (e : Environment) : Environment :=
  { e with txResults := e.txResults.tail, draws := e.draws + 1 }

/-- What a setter of Signal Access answers next (R259, U13). -/
def nextSetterAnswer (q : Quantity) (c : ChannelIndex) (v : U16) (s : State) : SetterAnswer :=
  match s.env.setterAnswers with
  | a :: _ => a
  | []     => Config.drawnSetterAnswer s.env.draws q c v

/-- The environment after a setter's answer is drawn. -/
def Environment.afterSetter (e : Environment) : Environment :=
  { e with setterAnswers := e.setterAnswers.tail, draws := e.draws + 1 }

/-! ### The transport sender -/

/-- The report of a transmission that timed out, if it did (R287). -/
def reportTx (r : Frame) (t : TxResult) (s : State) : State :=
  match t with
  | .sent    => s
  | .timeout => raise .transmitTimeout (.frame r) s

/-- `Respond(r)` (R258): one frame on tx_frame with its outcome; no retry. -/
def respond (r : Frame) (s : State) : State :=
  reportTx r (nextTxResult s) ((s.setEnv s.env.afterTx).emit (.txFrame (encodeFrame s.params r) (nextTxResult s)))

/-- `Err(k)` of R253: the report, then ErrorResponse(f). -/
def failRequest (k : ErrorKind) (f : Frame) (s : State) : State :=
  respond (errorResponse s.params f.channel f.signal f.value) (raise k (.frame f) s)

/-- The receiver's error response (R145) to the eight raw bytes in `rx.buf`, after its report (R135, R137). -/
def failReception (k : ErrorKind) (s : State) : State :=
  let e := isrErrorFields s.params k s.rx.buf
  respond (errorResponse s.params e.channel e.signal e.value) (raise k (.raw s.rx.buf) s)

/-! ### Signal Access (R259) -/

/-- What the getter of a quantity answers for a channel; a getter changes nothing. -/
def SignalAccess.get (a : SignalAccess) (q : Quantity) (c : ChannelIndex) : U16 :=
  match q with
  | .current     => a.current[c]
  | .temperature => a.temperature[c]

/-- Three PWM values as the 16-bit answers of a getter. -/
def pwmAnswers (v : Vector (Fin 1024) 3) : Vector U16 3 :=
  #v[BitVec.ofNat 16 v[0].val, BitVec.ofNat 16 v[1].val, BitVec.ofNat 16 v[2].val]

/-- Signal Access after a setter that stored something. -/
def SignalAccess.ofPwm (current temperature : Vector (Fin 1024) 3) : SignalAccess :=
  ⟨pwmAnswers current, pwmAnswers temperature⟩

/-- The getter's sentinel (R7, R259). -/
def sentinel : U16 := 0xFFFF#16

/-- Call a getter: its answer, and the call on record. -/
def callGetter (q : Quantity) (c : ChannelIndex) (s : State) : U16 × State :=
  (s.sa.get q c, s.emit (.saGet q c (s.sa.get q c)))

/-- Call a setter: its answer, what the getters return after it, and the call on record; a setter that returns false stored
nothing (R260). -/
def callSetter (q : Quantity) (c : ChannelIndex) (v : U16) (s : State) : Bool × State :=
  match nextSetterAnswer q c v s with
  | .refused    => (false, (s.setEnv s.env.afterSetter).emit (.saSet q c v false))
  | .stored current temperature =>
    (true, ((s.setEnv s.env.afterSetter).setSa (.ofPwm current temperature)).emit (.saSet q c v true))

end Sys2Proof.Machine
end

