-- ==== Sys2Proof/Machine/Checksum.lean ====
section
/-! DEFINITION. The pure operations of 42_checksum.md as events: each returns its result and changes nothing else. -/

namespace Sys2Proof.Machine

/-- CKSUM (R180). -/
def execCksum (command channel signal : Byte) (value : U16) (s : State) : Result :=
  .next (s.setReply (.byte (cksum command channel signal value)))

/-- VALIDATE (R181). -/
def execValidate (f : Frame) (s : State) : Result := .next (s.setReply (.bool (validate f)))

/-- MARKERS_VALID (R189). -/
def execMarkersValid (f : Frame) (s : State) : Result := .next (s.setReply (.bool (markersValid s.params f)))

/-- FRAME_VALID (R190). -/
def execFrameValid (f : Frame) (s : State) : Result := .next (s.setReply (.bool (frameValid s.params f)))

/-- ENCODE (R184). -/
def execEncodeFrame (f : Frame) (s : State) : Result := .next (s.setReply (.bytes (encodeFrame s.params f)))

/-- DECODE (R185). -/
def execDecodeFrame (b : Bytes8) (s : State) : Result := .next (s.setReply (.frame (decodeFrame s.params b)))

end Sys2Proof.Machine
end

