-- ==== Sys2Proof/Machine/Capture.lean ====
section
/-! DEFINITION. The PWM capture engine (43_capture.md): EDGE, WRAPSUB, DUTY, SAMPLE_TAKE, INIT_CAPTURE. -/

namespace Sys2Proof.Machine

/-- The rising form of EDGE (R201). -/
def CapChannel.rise (p : Params) (ts : Nat) (ch : CapChannel) : CapChannel :=
  let timed := if ch.haveRising then { ch with period := wrapsub p ts ch.lastRising } else ch
  { timed with lastRising := ts, haveRising := true }.awaitEdge .awaitingFalling

/-- The falling form of EDGE (R202): the pulse width always, a sample only when the period is above 0 (R205, R206). -/
def CapChannel.fall (p : Params) (ts : Nat) (ch : CapChannel) : CapChannel :=
  let timed := { ch with pulseWidth := wrapsub p ts ch.lastRising }
  let published :=
    if timed.period > 0 then
      { timed with dutyValue := dutyOf p timed.pulseWidth timed.period, sampleReady := true }
    else timed
  published.awaitEdge .awaitingRising

/-- The form of EDGE selected by the edge state (R200, R214). -/
def CapChannel.edge (p : Params) (ts : Nat) (ch : CapChannel) : CapChannel :=
  match ch.edgeState with
  | .awaitingRising  => ch.rise p ts
  | .awaitingFalling => ch.fall p ts

/-- EDGE (R214). -/
def execEdge (c : ChannelIndex) (ts : Nat) (s : State) : Result :=
  if s.up.cap then
    if isTimestamp s.params ts then .next (s.setCap c (s.cap[c].edge s.params ts)) else .refused .timestampOutOfRange
  else .refused .captureNotInitialised

/-- WRAPSUB (R203). -/
def execWrapsub (a b : Nat) (s : State) : Result :=
  if isTimestamp s.params a && isTimestamp s.params b then .next (s.setReply (.ticks (wrapsub s.params a b)))
  else .refused .timestampOutOfRange

/-- DUTY (R204). -/
def execDuty (pulseWidth period : Nat) (s : State) : Result :=
  .next (s.setReply (.duty (dutyOf s.params pulseWidth period)))

/-- SAMPLE_TAKE (R209): read the flag and the duty and clear the flag, in one step. -/
def sampleTake (c : ChannelIndex) (s : State) : (Bool × U16) × State :=
  ((s.cap[c].sampleReady, s.cap[c].dutyValue), s.setCap c { s.cap[c] with sampleReady := false })

/-- SAMPLE_TAKE as a consumer's request on its port (R209). -/
def execSampleTake (c : ChannelIndex) (s : State) : Result :=
  if s.up.cap then
    let taken := sampleTake c s
    .next (taken.2.setReply (.sample taken.1.1 taken.1.2))
  else .refused .captureNotInitialised

/-- INIT_CAPTURE (R210): every channel, and COUNTER_MAX read from the timer (entry 18). -/
def execInitCapture (s : State) : Result :=
  if s.env.counterMax = 0 then .refused .counterMaxZero
  else
    .next ({ s with cap := .replicate 3 ⟨0, false, 0, 0, 0, false, .awaitingRising, .rising⟩,
                    params := { s.params with counterMax := s.env.counterMax } }.setUp { s.up with cap := true })

end Sys2Proof.Machine
end

