-- ==== Sys2Proof/Machine/Consumer.lean ====
section
/-! DEFINITION. The message dispatcher's requests (44_dispatcher.md): each is Service (R253) on its row of the request map,
that is the checksum, the channel, the route and exactly one response. -/

namespace Sys2Proof.Machine

/-- R242, R253: the checksum before everything else. -/
def checked (f : Frame) (route : State → Result) (s : State) : Result :=
  if validate f then route s else .next (failRequest .checksumMismatch f s)

/-- R243, R253: the channel of a GET or SET. -/
def onChannel (f : Frame) (route : ChannelIndex → State → Result) (s : State) : Result :=
  match channelIndex s.params f.channel with
  | none   => .next (failRequest .invalidChannel f s)
  | some c => route c s

/-- R245: take the sample. -/
def routeSample (f : Frame) (c : ChannelIndex) (s : State) : Result :=
  if s.up.cap then
    let taken := sampleTake c s
    if taken.1.1 then .next (respond (getOkResponse s.params f.channel f.signal taken.1.2) taken.2)
    else .next (failRequest .unreadableSample f taken.2)
  else .refused .captureNotInitialised

/-- R246, R247: the getter's value, its sentinel an error. -/
def routeGetter (q : Quantity) (f : Frame) (c : ChannelIndex) (s : State) : Result :=
  let called := callGetter q c s
  if called.1 = sentinel then .next (failRequest .invalidChannel f called.2)
  else .next (respond (getOkResponse s.params f.channel f.signal called.1) called.2)

/-- R248, R249: the setter's answer. -/
def routeSetter (q : Quantity) (f : Frame) (c : ChannelIndex) (s : State) : Result :=
  let called := callSetter q c f.value s
  if called.1 then .next (respond (setOkResponse s.params f.channel f.signal f.value) called.2)
  else .next (failRequest .invalidChannel f called.2)

/-- PING (R244): whatever its channel, signal and value. -/
def execPing (f : Frame) (s : State) : Result :=
  checked f (fun t => .next (respond (pingOkResponse t.params) t)) s

/-- GET_PWM_INPUT (R245). -/
def execGetPwmInput (f : Frame) (s : State) : Result := checked f (onChannel f (routeSample f)) s

/-- GET_CURRENT (R246). -/
def execGetCurrent (f : Frame) (s : State) : Result := checked f (onChannel f (routeGetter .current f)) s

/-- GET_TEMPERATURE (R247). -/
def execGetTemperature (f : Frame) (s : State) : Result := checked f (onChannel f (routeGetter .temperature f)) s

/-- SET_CURRENT (R248). -/
def execSetCurrent (f : Frame) (s : State) : Result := checked f (onChannel f (routeSetter .current f)) s

/-- SET_TEMPERATURE (R249). -/
def execSetTemperature (f : Frame) (s : State) : Result := checked f (onChannel f (routeSetter .temperature f)) s

/-- SET_PWM_INPUT (R250): always an error. -/
def execSetPwmInput (f : Frame) (s : State) : Result :=
  checked f (onChannel f fun _ t => .next (failRequest .invalidSignalForOperation f t)) s

/-- GET_OTHER (R251). -/
def execGetOther (f : Frame) (s : State) : Result :=
  checked f (onChannel f fun _ t => .next (failRequest .invalidSignalForOperation f t)) s

/-- SET_OTHER (R251). -/
def execSetOther (f : Frame) (s : State) : Result :=
  checked f (onChannel f fun _ t => .next (failRequest .invalidSignalForOperation f t)) s

/-- UNKNOWN_CMD (R252): an error whatever the channel. -/
def execUnknownCmd (f : Frame) (s : State) : Result :=
  checked f (fun t => .next (failRequest .invalidSignalForOperation f t)) s

end Sys2Proof.Machine
end

