-- ==== Sys2Proof/Machine/RingBuffer.lean ====
section
/-! DEFINITION. The ring buffer (41_ring_buffer.md): ENQUEUE, DEQUEUE, INIT_FIFO. -/

namespace Sys2Proof.Machine

/-- The producer's three writes in their order (R160, R164): write slot, advance tail, increment count. -/
def RingBuffer.push (q : RingBuffer) (f : Frame) : RingBuffer :=
  let written  := q.slotWrite q.tail f
  let advanced := { written with tail := advance written.tail }
  { advanced with count := advanced.count + 1 }

/-- ENQUEUE (R160, R161): the count is tested once; a full buffer is left as it is. -/
def tryEnqueue (f : Frame) (s : State) : Bool × State :=
  if s.fifo.full then (false, s) else (true, s.setFifo (s.fifo.push f))

/-- ENQUEUE as an operation of its own. -/
def execEnqueue (f : Frame) (s : State) : Result :=
  if s.up.fifo then
    let tried := tryEnqueue f s
    .next (tried.2.setReply (.bool tried.1))
  else .refused .fifoNotInitialised

/-- DEQUEUE step 1 (R163, R165): the test of the count. -/
def dequeueTest (s : State) : State :=
  if s.fifo.empty then (s.setCons { s.cons with phase := .idle }).setReply (.dequeued none)
  else s.setCons { s.cons with phase := .deq2 }

/-- DEQUEUE step 2 (R165): the consumer's private copy of the oldest frame. -/
def dequeueRead (s : State) : State := s.setCons ⟨.deq3, some (s.fifo.slotRead s.fifo.head)⟩

/-- DEQUEUE step 3 (R165): advance head. -/
def dequeueAdvance (s : State) : State :=
  (s.setFifo { s.fifo with head := advance s.fifo.head }).setCons { s.cons with phase := .deq4 }

/-- DEQUEUE step 4 (R165, R167): the release of the slot; the frame is returned. -/
def dequeueRelease (s : State) : State :=
  ((s.setFifo { s.fifo with count := s.fifo.count - 1 }).setCons { s.cons with phase := .service }).setReply
    (.dequeued s.cons.frame)

/-- DEQUEUE: the micro-step the consumer's phase stands before (R165; entry 14). -/
def execDequeue (s : State) : Result :=
  if s.up.fifo then
    match s.cons.phase with
    | .idle    => .next (dequeueTest s)
    | .deq1    => .next (dequeueTest s)
    | .deq2    => .next (dequeueRead s)
    | .deq3    => .next (dequeueAdvance s)
    | .deq4    => .next (dequeueRelease s)
    | .service => .refused .secondConsumer
  else .refused .fifoNotInitialised

/-- INIT_FIFO (R173); not inside a DEQUEUE (U8). -/
def execInitFifo (s : State) : Result :=
  if s.cons.phase.insideDequeue then .refused .initFifoInsideDequeue
  else .next ((s.setFifo ⟨.replicate 16 Frame.zero, 0, 0, 0⟩).setUp { s.up with fifo := true })

end Sys2Proof.Machine
end

