-- ==== Sys2Proof/Machine/Receiver.lean ====
section
/-! DEFINITION. The frame receiver (40_receiver.md): RX_BYTE and INIT_RX. -/

namespace Sys2Proof.Machine

/-- Re-arm and pulse rx_rearm, at the end of every RX_BYTE step (R139). -/
def rearm (s : State) : State := (s.setRx s.rx.arm).emit .rxRearm

/-- R138: return to AwaitingStart; `rx.buf` keeps its bytes. -/
def Receiver.awaitStart (r : Receiver) : Receiver := { r with state := .awaitingStart, index := 0 }

/-- The Complete processing (R135, R136, R137): markers, then the enqueue; the checksum is not examined (R146). -/
def completeFrame (s : State) : Result :=
  let f := decodeFrame s.params s.rx.buf
  if markersValid s.params f then
    if s.up.fifo then
      let tried := tryEnqueue f s
      if tried.1 then .next tried.2 else .next (failReception .bufferFull tried.2)
    else .refused .fifoNotInitialised
  else .next (failReception .malformedFrame s)

/-- A byte while AwaitingStart (R131, R132). -/
def awaitByte (b : Byte) (s : State) : State :=
  if b = s.params.startMarker then s.setRx { s.rx.store 0 b with index := 1, state := .accumulating } else s

/-- A byte while Accumulating (R133, R134). -/
def accumulateByte (b : Byte) (s : State) : Result :=
  if s.rx.index ≤ 6 then .next (s.setRx { s.rx.store s.rx.index b with index := s.rx.index + 1 })
  else if s.rx.index = 7 then
    andThen (completeFrame (s.setRx { s.rx.store 7 b with index := 8, state := .complete })) fun t =>
      .next (t.setRx t.rx.awaitStart)
  else .fault .bufferIndexOutOfRange

/-- The transition of R143 that a byte takes. -/
def receiveByte (b : Byte) (s : State) : Result :=
  match s.rx.state with
  | .awaitingStart => .next (awaitByte b s)
  | .accumulating  => accumulateByte b s
  | .complete      => .fault .byteInComplete

/-- RX_BYTE (R141): disarm, one transition, re-arm; enabled iff `rx.armed` (R130). -/
def execRxByte (b : Byte) (s : State) : Result :=
  if s.rx.armed then andThen (receiveByte b (s.setRx s.rx.disarm)) fun t => .next (rearm t)
  else .refused .receiverNotArmed

/-- INIT_RX (R142). -/
def execInitRx (s : State) : Result := .next (rearm (s.setRx ⟨.awaitingStart, 0, .replicate 8 0, false⟩))

end Sys2Proof.Machine
end

