-- ==== Sys2Proof/Machine/Sender.lean ====
section
/-! DEFINITION. The response rows of 30_encoding.md R100, each one use of the transport sender (R258). -/

namespace Sys2Proof.Machine

/-- RSP_GET_OK (R255, R256). -/
def execRspGetOk (channel signal : Byte) (value : U16) (s : State) : Result :=
  .next (respond (getOkResponse s.params channel signal value) s)

/-- RSP_SET_OK (R255). -/
def execRspSetOk (channel signal : Byte) (value : U16) (s : State) : Result :=
  .next (respond (setOkResponse s.params channel signal value) s)

/-- RSP_PING_OK (R244). -/
def execRspPingOk (s : State) : Result := .next (respond (pingOkResponse s.params) s)

/-- RSP_ERROR (R254). -/
def execRspError (channel signal : Byte) (value : U16) (s : State) : Result :=
  .next (respond (errorResponse s.params channel signal value) s)

/-- RSP_ISR_ERROR (R145), with the fields ISR_ERROR_FIELDS gave. -/
def execRspIsrError (channel signal : Byte) (value : U16) (s : State) : Result :=
  .next (respond (errorResponse s.params channel signal value) s)

end Sys2Proof.Machine
end

