-- ==== Sys2Proof/Machine/Dispatch.lean ====
section
/-! DEFINITION. One arm per instruction, each one call of its meaning. -/

namespace Sys2Proof.Machine

def exec (i : Instr) (s : State) : Host.Outcome State Fault Refusal :=
  match i with
  -- requests (44_dispatcher.md)
  | .ping f => Sys2Proof.Machine.execPing f s
  | .getPwmInput f => Sys2Proof.Machine.execGetPwmInput f s
  | .getCurrent f => Sys2Proof.Machine.execGetCurrent f s
  | .getTemperature f => Sys2Proof.Machine.execGetTemperature f s
  | .setCurrent f => Sys2Proof.Machine.execSetCurrent f s
  | .setTemperature f => Sys2Proof.Machine.execSetTemperature f s
  | .setPwmInput f => Sys2Proof.Machine.execSetPwmInput f s
  | .getOther f => Sys2Proof.Machine.execGetOther f s
  | .setOther f => Sys2Proof.Machine.execSetOther f s
  | .unknownCmd f => Sys2Proof.Machine.execUnknownCmd f s
  -- responses (30_encoding.md R100)
  | .rspGetOk channel signal value => Sys2Proof.Machine.execRspGetOk channel signal value s
  | .rspSetOk channel signal value => Sys2Proof.Machine.execRspSetOk channel signal value s
  | .rspPingOk => Sys2Proof.Machine.execRspPingOk s
  | .rspError channel signal value => Sys2Proof.Machine.execRspError channel signal value s
  | .rspIsrError channel signal value => Sys2Proof.Machine.execRspIsrError channel signal value s
  -- events (30_encoding.md R103)
  | .rxByte b => Sys2Proof.Machine.execRxByte b s
  | .enqueue f => Sys2Proof.Machine.execEnqueue f s
  | .dequeue => Sys2Proof.Machine.execDequeue s
  | .cksum command channel signal value => Sys2Proof.Machine.execCksum command channel signal value s
  | .validate f => Sys2Proof.Machine.execValidate f s
  | .markersValid f => Sys2Proof.Machine.execMarkersValid f s
  | .frameValid f => Sys2Proof.Machine.execFrameValid f s
  | .encodeFrame f => Sys2Proof.Machine.execEncodeFrame f s
  | .decodeFrame b => Sys2Proof.Machine.execDecodeFrame b s
  | .edge c ts => Sys2Proof.Machine.execEdge c ts s
  | .wrapsub a b => Sys2Proof.Machine.execWrapsub a b s
  | .duty pulseWidth period => Sys2Proof.Machine.execDuty pulseWidth period s
  | .sampleTake c => Sys2Proof.Machine.execSampleTake c s
  | .initRx => Sys2Proof.Machine.execInitRx s
  | .initFifo => Sys2Proof.Machine.execInitFifo s
  | .initCapture => Sys2Proof.Machine.execInitCapture s

end Sys2Proof.Machine
end

