-- ==== Sys2Proof/Machine/Fetch.lean ====
section
/-! DEFINITION. What a step runs next: the first event of the inbox, or a turn of the consumer (R14, R69; entry 3), and how a
word of spec/opcode_table.json is put there. -/

namespace Sys2Proof.Machine

/-- What was fetched: an instruction with the state it runs in, the service of a frame by the consumer, or a stop. -/
inductive Fetched where
  | run (i : Instr) (s : State)
  | service (i : Instr) (s : State)
  | undecodable (e : DecodeError)
  | noFrame
deriving DecidableEq, Repr

/-- The state with another inbox. -/
def State.setInbox (s : State) (l : List InboxItem) : State := s.setEnv { s.env with inbox := l }

/-- The consumer's next micro-step (R241): in phase Service the service of its frame, else the next step of a DEQUEUE. -/
def fetchConsumer (s : State) : Fetched :=
  match s.cons.phase with
  | .service =>
    match s.cons.frame with
    | some f => .service (requestOf s.params f) s
    | none   => .noFrame
  | .idle | .deq1 | .deq2 | .deq3 | .deq4 => .run .dequeue s

/-- The next step: the inbox in its order, and the consumer when the inbox is empty. -/
def fetch (s : State) : Fetched :=
  match s.env.inbox with
  | .event w :: rest =>
    match decode s.params w with
    | .ok i    => .run i (s.setInbox rest)
    | .error e => .undecodable e
  | .turn :: rest => fetchConsumer (s.setInbox rest)
  | []            => fetchConsumer s

/-- After the service of a frame (R261): the frame is gone and the drain goes on with the next DEQUEUE. -/
def retire (s : State) : State := s.setCons ⟨.deq1, none⟩

/-- Put an operation where the next step fetches: a request is the frame the consumer is about to service, in its turn; every
other operation is the next event of the inbox. -/
def placeWord (s : State) (w : PortWord) : State :=
  match w.port, bytes8? w.bytes with
  | .request, some b => (s.setCons ⟨.service, some (decodeFrame s.params b)⟩).setInbox (.turn :: s.env.inbox)
  | _, _             => s.setInbox (.event w :: s.env.inbox)

end Sys2Proof.Machine
end

