-- ==== Sys2Proof/Machine/Step.lean ====
section
/-! DEFINITION. One step of the machine, and where a word of the opcode table is stored for the next step to fetch. -/

namespace Sys2Proof.Machine

/-- Run what was fetched; after the service of a frame, retire it (R261). -/
def runFetched : Fetched → Result
  | .run i t       => exec i t
  | .service i t   => andThen (exec i t) fun u => .next (retire u)
  | .undecodable e => .refused (.undecodable e)
  | .noFrame       => .fault .serviceWithoutFrame

/-- One step (R69): under parameters that keep R9 (U15), run what is fetched. -/
def step (s : State) : Host.Outcome State Fault Refusal :=
  if s.params.valid then runFetched (fetch s) else .refused .invalidParameters

/-- The word of an opcode-table row where the next step fetches it (entry 22); a word that is no row changes nothing. -/
def State.withFetchWord (s : State) (nbits w : Nat) : State :=
  match tableWord nbits w with
  | some x => placeWord s x
  | none   => s

end Sys2Proof.Machine
end

