-- ==== Sys2Proof/Safety.lean ====
section
/-! DEFINITION. The terms in which statements speak of the machine: the queued frames (R29), the invariants between steps
(R21, R22, R29, R31 to R38, R39, R259, R323, R324), one answer (R257, R258), runs of bytes and frames. -/

namespace Sys2Proof.Machine

/-! ### The queue (R29) -/

/-- The `n` slots from `start` on, in ring order. -/
def RingBuffer.slotsFrom (q : RingBuffer) (start : SlotIndex) (n : Nat) : List Frame :=
  (List.range n).map fun k => q.slotRead ⟨(start.val + k) % 16, by omega⟩

/-- The queued frames, oldest first (R29): between DEQUEUE's micro-steps 3 and 4 the count still holds the frame already
taken. -/
def State.queued (s : State) : List Frame :=
  s.fifo.slotsFrom s.fifo.head (if s.cons.phase = .deq4 then s.fifo.count - 1 else s.fifo.count)

/-! ### Invariants between steps -/

/-- R21, R22, R132: between steps the receiver awaits a start with index 0, or holds 1 to 7 bytes, the start marker first. -/
abbrev State.rxInv (s : State) : Prop :=
  (s.rx.state = .awaitingStart ∧ s.rx.index = 0) ∨
  (s.rx.state = .accumulating ∧ 1 ≤ s.rx.index ∧ s.rx.index ≤ 7 ∧ s.rx.buf[0] = s.params.startMarker)

/-- R28, R29: the count and the tail. -/
abbrev State.fifoInv (s : State) : Prop :=
  s.fifo.count ≤ 16 ∧
  (s.cons.phase.insideDequeue = true → 1 ≤ s.fifo.count) ∧
  s.fifo.tail.val = (s.fifo.head.val + (if s.cons.phase = .deq4 then s.fifo.count - 1 else s.fifo.count)) % 16

/-- R39, R165, R170 (a): the consumer's copy is the frame of the slot it took, which no ENQUEUE has overwritten. -/
abbrev State.consInv (s : State) : Prop :=
  match s.cons.phase with
  | .idle    => s.cons.frame = none
  | .deq1    => s.cons.frame = none
  | .deq2    => s.cons.frame = none
  | .deq3    => s.cons.frame = some (s.fifo.slotRead s.fifo.head)
  | .deq4    => s.cons.frame = some (s.fifo.slotRead ⟨(s.fifo.head.val + 15) % 16, by omega⟩)
  | .service => s.cons.frame.isSome = true

/-- R31 to R38, R207: one capture channel. -/
abbrev CapChannel.inv (p : Params) (ch : CapChannel) : Prop :=
  ch.polarity = polarityOf ch.edgeState ∧
  ch.lastRising ≤ p.counterMax ∧ ch.pulseWidth ≤ p.counterMax ∧ ch.period ≤ p.counterMax ∧
  (ch.edgeState = .awaitingFalling → ch.haveRising = true) ∧
  (ch.haveRising = false → ch.period = 0 ∧ ch.sampleReady = false)

/-- R259: the values Signal Access holds are PWM values 0..=1023. -/
abbrev SignalAccess.inv (a : SignalAccess) : Prop :=
  ∀ c : ChannelIndex, (a.get .current c).toNat ≤ 1023 ∧ (a.get .temperature c).toNat ≤ 1023

/-- What holds between any two steps after bring-up. -/
structure State.Inv (s : State) : Prop where
  params : s.params.valid = true
  fifoUp : s.up.fifo = true
  capUp  : s.up.cap = true
  armed  : s.rx.armed = true
  rx     : s.rxInv
  fifo   : s.fifoInv
  cons   : s.consInv
  cap    : ∀ c : ChannelIndex, (s.cap[c]).inv s.params
  sa     : s.sa.inv

/-! ### Outputs -/

/-- Whether an output is a response on tx_frame. -/
def Output.isTx : Output → Bool
  | .txFrame _ _ => true
  | .errReport _ _ | .rxRearm | .saGet _ _ _ | .saSet _ _ _ _ => false

/-- How many responses the block has transmitted. -/
def State.sentCount (s : State) : Nat := s.trace.countP Output.isTx

/-- What the sender puts out for a response `r` with outcome `t` (R258, R287): the frame, and a report if it timed out. -/
def sentOutputs (p : Params) (r : Frame) (t : TxResult) : List Output :=
  .txFrame (encodeFrame p r) t :: (if t = .timeout then [.errReport .transmitTimeout (.frame r)] else [])

/-- `s'` is `s` after the response `r` and nothing else (R257, R258): the outcome is the environment's next one where its
list has one, and any outcome where it has none. -/
def Answers (r : Frame) (s s' : State) : Prop :=
  ∃ t, (∀ u, s.env.txResults.head? = some u → t = u) ∧
    s' = { s with
      env   := { s.env with txResults := s.env.txResults.tail, draws := s.env.draws + 1 }
      trace := s.trace ++ sentOutputs s.params r t }

/-- `s'` is `s` after the report of an error of kind `k` about the request `f` and the one ERROR response that mirrors it
(R254, R296), and nothing else. -/
def Fails (k : ErrorKind) (f : Frame) (s s' : State) : Prop :=
  Answers
    ⟨s.params.startMarker, s.params.statusError, f.channel, f.signal, f.value,
      cksum s.params.statusError f.channel f.signal f.value, s.params.endMarker⟩
    { s with trace := s.trace ++ [.errReport k (.frame f)] } s'

/-! ### Requests -/

/-- The frame a request row carries. -/
def requestFrame : Instr → Option Frame
  | .ping f | .getPwmInput f | .getCurrent f | .getTemperature f | .setCurrent f | .setTemperature f
  | .setPwmInput f | .getOther f | .setOther f | .unknownCmd f => some f
  | .rspGetOk _ _ _ | .rspSetOk _ _ _ | .rspPingOk | .rspError _ _ _ | .rspIsrError _ _ _ => none
  | .rxByte _ | .enqueue _ | .dequeue | .cksum _ _ _ _ | .validate _ | .markersValid _ | .frameValid _ => none
  | .encodeFrame _ | .decodeFrame _ | .edge _ _ | .wrapsub _ _ | .duty _ _ | .sampleTake _ => none
  | .initRx | .initFifo | .initCapture => none

/-! ### Sequences of one operation -/

/-- RX_BYTE of each byte in turn. -/
def receiveAll : List Byte → State → Result
  | [], s      => .next s
  | b :: bs, s => andThen (exec (.rxByte b) s) (receiveAll bs)

/-- ENQUEUE of each frame in turn. -/
def enqueueAll : List Frame → State → Result
  | [], s      => .next s
  | f :: fs, s => andThen (exec (.enqueue f) s) (enqueueAll fs)

/-- EDGE of one channel at each timestamp in turn. -/
def edgeAll (c : ChannelIndex) : List Nat → State → Result
  | [], s      => .next s
  | t :: ts, s => andThen (exec (.edge c t) s) (edgeAll c ts)

end Sys2Proof.Machine
end

