-- ==== Sys2Proof/Certificates/Slice0/Obligations.lean ====
section
/-! DEFINITION. The statements for the provers. Names of the spec's rules are those of spec/; a frame condition is stated by
writing the next state out: a field that is not named in `{ s with … }` keeps its value. -/

open Sys2Proof Sys2Proof.Machine

/-! ### Encodings -/

/-- R99, R100, R103: decoding the encoding of a well-formed instruction gives the instruction, for every constructor, every
operand and every parameter instantiation that keeps R9. Operand bytes of the event ports, and timestamp-wide operands of DUTY
up to COUNTER_MAX, are the model's choice (entries 11 and 29). -/
def Obligations.EveryInstructionDecodesFromItsEncoding : Prop :=
  ∀ (p : Params) (i : Instr), p.valid = true → i.wellFormed p = true → decode p (encode p i) = .ok i

/-- R99: a frame selects exactly the row whose command and signal condition it meets. -/
def Obligations.RequestFrameSelectsExactlyItsRow : Prop :=
  ∀ (p : Params) (f : Frame) (i : Instr), p.valid = true →
    (requestOf p f = i ↔ requestFrame i = some f ∧ i.rowHolds p = true)

/-- R186: ENCODE and DECODE are inverse to each other, hence bijections. -/
def Obligations.EncodeAndDecodeAreInverse : Prop :=
  ∀ p : Params,
    (∀ f : Frame, decodeFrame p (encodeFrame p f) = f) ∧
    (∀ b : Bytes8, encodeFrame p (decodeFrame p b) = b) ∧
    Function.Bijective (encodeFrame p) ∧ Function.Bijective (decodeFrame p)

/-- R62, R97: which byte of the value stands at offset 4 and which at offset 5, and the number they spell. -/
def Obligations.ValueBytesFollowByteOrder : Prop :=
  ∀ (p : Params) (f : Frame) (b4 b5 : Byte),
    (p.valueLowFirst = true →
      ((encodeFrame p f)[4]).toNat = f.value.toNat % 256 ∧ ((encodeFrame p f)[5]).toNat = f.value.toNat / 256 ∧
      (assembleValue p b4 b5).toNat = b5.toNat * 256 + b4.toNat) ∧
    (p.valueLowFirst = false →
      ((encodeFrame p f)[4]).toNat = f.value.toNat / 256 ∧ ((encodeFrame p f)[5]).toNat = f.value.toNat % 256 ∧
      (assembleValue p b4 b5).toNat = b4.toNat * 256 + b5.toNat)

/-- R98: the channel index is the difference to CH_1 when that is 0, 1 or 2, and there is none otherwise. -/
def Obligations.ChannelIndexIsTheDifferenceInRange : Prop :=
  ∀ (p : Params) (ch : Byte),
    (∀ c : ChannelIndex, channelIndex p ch = some c ↔ ch.toNat = p.ch1.toNat + c.val) ∧
    (channelIndex p ch = none ↔ ¬ (p.ch1.toNat ≤ ch.toNat ∧ ch.toNat ≤ p.ch1.toNat + 2))

/-- Six words written out from 95_test_vectors.md and opcode_table.json decode to what they stand for in the model. The byte
values are those of the reference instantiation (R10, entry 1), the operand bytes of EDGE and CKSUM the model's layout
(entry 11). A word alone names no port, and the port selects the operation (R103): that each word is read by the row that
fixes most of its bytes, so that AAFF00000000FF55 is RSP_ISR_ERROR and neither RSP_ERROR nor UNKNOWN_CMD, is the model's
choice (entry 12). -/
def Obligations.PrintedWordsDecode : Prop :=
  decodeTableWord 64 0xAA01320200003155 = some (.getCurrent ⟨0xAA, 0x01, 0x32, 0x02, 0, 0x31, 0x55⟩) ∧
  decodeTableWord 64 0xAA02310274400555 = some (.setCurrent ⟨0xAA, 0x02, 0x31, 0x02, 16500, 0x05, 0x55⟩) ∧
  decodeTableWord 64 0xAA03310134121555 = some (.ping ⟨0xAA, 0x03, 0x31, 0x01, 0x1234, 0x15, 0x55⟩) ∧
  decodeTableWord 64 0xAAFF00000000FF55 = some (.rspIsrError 0 0 0) ∧
  decodeTableWord 24 0x0203E8 = some (.edge 2 1000) ∧
  decodeTableWord 40 0x0231024074 = some (.cksum 0x02 0x31 0x02 16500)

/-! ### A step runs what it fetches -/

/-- The first event of the inbox, decoded, is what the step runs, with the rest of the inbox left (R14, R15, R69). The inbox
as the order of the events is the model's choice (entry 3). -/
def Obligations.StepRunsTheDecodedEvent : Prop :=
  ∀ (s : State) (w : PortWord) (rest : List InboxItem) (i : Instr),
    s.params.valid = true → s.env.inbox = .event w :: rest → decode s.params w = .ok i →
    step s = exec i { s with env := { s.env with inbox := rest } }

/-- What a step does in a turn of the consumer. In phase Service it runs the request the frame selects (R99), after which
the frame is gone and a DEQUEUE comes next; in every other phase it runs DEQUEUE, one of its micro-steps (R165). `u` is the
state without the turn. Three points are the model's, not the spec's: a turn is given by the inbox or taken when the inbox
is empty (entry 3, DESIGN CHOICE), the whole service of a frame is one step (entry 13, DEDUCED, unsafe), and the phase
after it, which says that micro-step 1 comes next, is Deq1 (entry 14, DEDUCED). -/
def Obligations.StepRunsTheConsumersTurn : Prop :=
  ∀ (s u : State), s.params.valid = true →
    ((s.env.inbox = [] ∧ u = s) ∨
      (∃ rest, s.env.inbox = .turn :: rest ∧ u = { s with env := { s.env with inbox := rest } })) →
    (s.cons.phase ≠ .service → step s = exec .dequeue u) ∧
    (∀ f, s.cons.phase = .service → s.cons.frame = some f →
      (∀ t, exec (requestOf s.params f) u = .next t → step s = .next { t with cons := ⟨.deq1, none⟩ }) ∧
      (∀ e, exec (requestOf s.params f) u = .refused e → step s = .refused e))

/-! ### Checksum and codec (42_checksum.md) -/

/-- R180, R181, R184, R185, R189, R190: the six pure operations complete in every state, return their result, and change
nothing else. That a result is returned in the field `reply` is the model's choice (entry 9). -/
def Obligations.PureOperationsReturnTheirResult : Prop :=
  ∀ (s : State) (f : Frame) (b : Bytes8) (c h g : Byte) (v : U16),
    exec (.cksum c h g v) s = .next { s with
      reply := .byte (c ^^^ h ^^^ g ^^^ BitVec.ofNat 8 (v.toNat % 256) ^^^ BitVec.ofNat 8 (v.toNat / 256)) } ∧
    exec (.validate f) s = .next { s with
      reply := .bool (decide (f.checksum = cksum f.command f.channel f.signal f.value)) } ∧
    exec (.markersValid f) s = .next { s with
      reply := .bool (decide (f.startMark = s.params.startMarker ∧ f.endMark = s.params.endMarker)) } ∧
    exec (.frameValid f) s = .next { s with
      reply := .bool (decide (f.startMark = s.params.startMarker ∧ f.endMark = s.params.endMarker ∧
        f.checksum = cksum f.command f.channel f.signal f.value)) } ∧
    (∃ v0 v1 : Byte,
      (v0.toNat, v1.toNat) = (if s.params.valueLowFirst then (f.value.toNat % 256, f.value.toNat / 256)
        else (f.value.toNat / 256, f.value.toNat % 256)) ∧
      exec (.encodeFrame f) s = .next { s with
        reply := .bytes #v[f.startMark, f.command, f.channel, f.signal, v0, v1, f.checksum, f.endMark] }) ∧
    (∃ value : U16,
      value.toNat = (if s.params.valueLowFirst then b[5].toNat * 256 + b[4].toNat
        else b[4].toNat * 256 + b[5].toNat) ∧
      exec (.decodeFrame b) s = .next { s with reply := .frame ⟨b[0], b[1], b[2], b[3], value, b[6], b[7]⟩ })

/-- R187: flipping one payload bit changes the computed checksum in exactly the bit of the same position, so a valid frame
with one flipped payload bit or one flipped checksum bit fails VALIDATE. -/
def Obligations.SingleBitFlipIsAlwaysDetected : Prop :=
  ∀ (f : Frame) (k : Fin 8),
    let bit : Byte := BitVec.twoPow 8 k.val
    let sum := cksum f.command f.channel f.signal f.value
    cksum (f.command ^^^ bit) f.channel f.signal f.value = sum ^^^ bit ∧
    cksum f.command (f.channel ^^^ bit) f.signal f.value = sum ^^^ bit ∧
    cksum f.command f.channel (f.signal ^^^ bit) f.value = sum ^^^ bit ∧
    cksum f.command f.channel f.signal (f.value ^^^ BitVec.twoPow 16 k.val) = sum ^^^ bit ∧
    cksum f.command f.channel f.signal (f.value ^^^ BitVec.twoPow 16 (k.val + 8)) = sum ^^^ bit ∧
    (validate f = true →
      validate { f with command := f.command ^^^ bit } = false ∧
      validate { f with channel := f.channel ^^^ bit } = false ∧
      validate { f with signal := f.signal ^^^ bit } = false ∧
      validate { f with value := f.value ^^^ BitVec.twoPow 16 k.val } = false ∧
      validate { f with value := f.value ^^^ BitVec.twoPow 16 (k.val + 8) } = false ∧
      validate { f with checksum := f.checksum ^^^ bit } = false)

/-- R188: whatever bits `e` are flipped in a valid frame, VALIDATE still says true exactly when at every bit position the
flips in the six bytes are even in number, that is when they cancel. -/
def Obligations.BalancedFlipsPassAndNoOthers : Prop :=
  ∀ (f e : Frame), validate f = true →
    (validate ⟨f.startMark, f.command ^^^ e.command, f.channel ^^^ e.channel, f.signal ^^^ e.signal, f.value ^^^ e.value,
        f.checksum ^^^ e.checksum, f.endMark⟩ = true ↔
      e.command ^^^ e.channel ^^^ e.signal ^^^ valueLow e.value ^^^ valueHigh e.value ^^^ e.checksum = 0)

/-! ### Capture arithmetic (43_capture.md section 2) -/

/-- R203: WRAPSUB is the document's formula, equals the difference modulo COUNTER_MAX + 1, and counts forward from b to a. -/
def Obligations.WrapsubIsTheModularDifference : Prop :=
  ∀ (p : Params) (a b : Nat), a ≤ p.counterMax → b ≤ p.counterMax →
    wrapsub p a b = (if a ≥ b then a - b else (p.counterMax + 1 - b) + a) ∧
    ((wrapsub p a b : Nat) : Int) = ((a : Int) - (b : Int)) % ((p.counterMax : Int) + 1) ∧
    wrapsub p a b ≤ p.counterMax ∧ (b + wrapsub p a b) % (p.counterMax + 1) = a

/-- R203, U10: WRAPSUB completes on timestamps and returns the ticks; it is refused outside 0..COUNTER_MAX. -/
def Obligations.WrapsubReturnsTicksOrIsRefused : Prop :=
  ∀ (s : State) (a b : Nat),
    (a ≤ s.params.counterMax → b ≤ s.params.counterMax →
      exec (.wrapsub a b) s = .next { s with
        reply := .ticks (if a ≥ b then a - b else (s.params.counterMax + 1 - b) + a) }) ∧
    (a > s.params.counterMax ∨ b > s.params.counterMax → exec (.wrapsub a b) s = .refused .timestampOutOfRange)

/-- R204, R213: DUTY completes for every operand. With a period above 0 and a quotient up to 65535 the result is the floor of
pulseWidth * 100 / period; above that it is the quotient modulo 65536 under the default DUTY_NARROW. With a period of 0, and
above 65535 without the default, the result is some value, on which nothing is said (entries 2 and 17). -/
def Obligations.DutyIsTheFlooredPercentage : Prop :=
  ∀ (s : State) (w q : Nat), ∃ d : U16,
    exec (.duty w q) s = .next { s with reply := .duty d } ∧
    (q > 0 → w * 100 < 65536 * q → d.toNat * q ≤ w * 100 ∧ w * 100 < (d.toNat + 1) * q) ∧
    (q > 0 → w * 100 ≥ 65536 * q → s.params.dutyNarrow = .modulo → d.toNat = (w * 100 / q) % 65536)

/-! ### EDGE, SAMPLE_TAKE, INIT_CAPTURE (43_capture.md) -/

/-- R201, R207: the rising form, with its frame. -/
def Obligations.RisingEdgeMeasuresThePeriod : Prop :=
  ∀ (s : State) (c : ChannelIndex) (ts : Nat),
    s.up.cap = true → ts ≤ s.params.counterMax → s.cap[c].edgeState = .awaitingRising →
    exec (.edge c ts) s = .next { s with cap := s.cap.set c { s.cap[c] with
      period     := if s.cap[c].haveRising then
          (if ts ≥ s.cap[c].lastRising then ts - s.cap[c].lastRising
           else (s.params.counterMax + 1 - s.cap[c].lastRising) + ts)
        else s.cap[c].period
      lastRising := ts
      haveRising := true
      edgeState  := .awaitingFalling
      polarity   := .falling } }

/-- R202, R205, R206, R207: the falling form, with its frame. A sample is published exactly when the period is above 0; its
duty is the result DUTY returns for the same operands. -/
def Obligations.FallingEdgeMeasuresAndPublishes : Prop :=
  ∀ (s : State) (c : ChannelIndex) (ts : Nat),
    s.up.cap = true → ts ≤ s.params.counterMax → s.cap[c].edgeState = .awaitingFalling →
    ∀ w, w = (if ts ≥ s.cap[c].lastRising then ts - s.cap[c].lastRising
        else (s.params.counterMax + 1 - s.cap[c].lastRising) + ts) →
    (s.cap[c].period = 0 →
      exec (.edge c ts) s = .next { s with cap := s.cap.set c { s.cap[c] with
        pulseWidth := w, edgeState := .awaitingRising, polarity := .rising } }) ∧
    (s.cap[c].period > 0 →
      ∃ d : U16, exec (.duty w s.cap[c].period) s = .next { s with reply := .duty d } ∧
        exec (.edge c ts) s = .next { s with cap := s.cap.set c { s.cap[c] with
          pulseWidth := w, dutyValue := d, sampleReady := true, edgeState := .awaitingRising, polarity := .rising } })

/-- R208: the edges of two channels commute. -/
def Obligations.EdgesOfTwoChannelsCommute : Prop :=
  ∀ (s : State) (c d : ChannelIndex) (tc td : Nat), c ≠ d →
    andThen (exec (.edge c tc) s) (exec (.edge d td)) = andThen (exec (.edge d td) s) (exec (.edge c tc))

/-- R78: a received byte and a captured edge, in either order, give the same state. -/
def Obligations.ByteAndEdgeStepsCommute : Prop :=
  ∀ (s t u : State) (b : Byte) (c : ChannelIndex) (ts : Nat),
    exec (.rxByte b) s = .next t → exec (.edge c ts) s = .next u →
    ∃ v, exec (.edge c ts) t = .next v ∧ exec (.rxByte b) u = .next v

/-- R212, R205: the first three edges after INIT_CAPTURE publish nothing; the fourth publishes exactly when the two rising
timestamps differ. -/
def Obligations.FourthEdgePublishesTheFirstSample : Prop :=
  ∀ (s : State) (c : ChannelIndex) (r1 f1 r2 f2 : Nat),
    s.up.cap = true → s.cap[c] = CapChannel.reset →
    r1 ≤ s.params.counterMax → f1 ≤ s.params.counterMax → r2 ≤ s.params.counterMax → f2 ≤ s.params.counterMax →
    ∃ t u, edgeAll c [r1, f1, r2] s = .next t ∧ exec (.edge c f2) t = .next u ∧
      t.cap[c] = ⟨r2, true, wrapsub s.params f1 r1, wrapsub s.params r2 r1, 0, false, .awaitingFalling, .falling⟩ ∧
      u.cap[c].pulseWidth = wrapsub s.params f2 r2 ∧ u.cap[c].period = wrapsub s.params r2 r1 ∧
      (u.cap[c].sampleReady = true ↔ r1 ≠ r2) ∧ (r1 = r2 → u.cap[c].dutyValue = 0)

/-- R209, R67: SAMPLE_TAKE returns the flag and the duty and clears the flag, nothing else of the channel changes, and a second
take finds nothing. -/
def Obligations.SampleTakeReadsAndClears : Prop :=
  ∀ (s : State) (c : ChannelIndex), s.up.cap = true →
    ∃ t u, exec (.sampleTake c) s = .next t ∧ exec (.sampleTake c) t = .next u ∧
      t = { s with reply := .sample s.cap[c].sampleReady s.cap[c].dutyValue,
                   cap   := s.cap.set c { s.cap[c] with sampleReady := false } } ∧
      u = { t with reply := .sample false s.cap[c].dutyValue }

/-- R210, U10: INIT_CAPTURE sets every channel as the reset table says and reads COUNTER_MAX; a counter_max of 0 is refused. -/
def Obligations.InitCaptureSetsEveryChannel : Prop :=
  ∀ s : State,
    (s.env.counterMax ≠ 0 →
      exec .initCapture s = .next { s with
        cap    := #v[⟨0, false, 0, 0, 0, false, .awaitingRising, .rising⟩,
          ⟨0, false, 0, 0, 0, false, .awaitingRising, .rising⟩, ⟨0, false, 0, 0, 0, false, .awaitingRising, .rising⟩]
        params := { s.params with counterMax := s.env.counterMax }
        up     := { s.up with cap := true } }) ∧
    (s.env.counterMax = 0 → exec .initCapture s = .refused .counterMaxZero)

/-- R46, R74: the only instruction, but INIT_CAPTURE, that changes a capture channel is an edge of that channel, except that
SAMPLE_TAKE and a GET of PWM-input clear the flag of their own channel. -/
def Obligations.CaptureChannelHasOneWriter : Prop :=
  ∀ (i : Instr) (s t : State) (d : ChannelIndex),
    exec i s = .next t → i ≠ .initCapture → (∀ ts, i ≠ .edge d ts) →
    t.cap[d] = s.cap[d] ∨
    (t.cap[d] = { s.cap[d] with sampleReady := false } ∧
      (i = .sampleTake d ∨ ∃ f, i = .getPwmInput f ∧ channelIndex s.params f.channel = some d))

/-! ### Receiver (40_receiver.md) -/

/-- R131, R139: in AwaitingStart a byte that is not the start marker is discarded without a report. -/
def Obligations.ByteOutsideAFrameIsDiscarded : Prop :=
  ∀ (s : State) (b : Byte), s.rx.armed = true → s.rx.state = .awaitingStart → b ≠ s.params.startMarker →
    exec (.rxByte b) s = .next { s with trace := s.trace ++ [.rxRearm] }

/-- R132, R139: in AwaitingStart the start marker begins a frame. -/
def Obligations.StartMarkerBeginsAFrame : Prop :=
  ∀ (s : State) (b : Byte), s.rx.armed = true → s.rx.state = .awaitingStart → b = s.params.startMarker →
    exec (.rxByte b) s = .next { s with
      rx    := ⟨.accumulating, 1, s.rx.buf.set 0 b, true⟩
      trace := s.trace ++ [.rxRearm] }

/-- R133, R139, R144: while Accumulating with index at most 6 any byte, a marker value too, is stored and the index advances. -/
def Obligations.ByteInsideAFrameIsStored : Prop :=
  ∀ (s : State) (b : Byte) (k : Nat) (hk : k ≤ 6),
    s.rx.armed = true → s.rx.state = .accumulating → s.rx.index = k →
    exec (.rxByte b) s = .next { s with
      rx    := ⟨.accumulating, k + 1, s.rx.buf.set k b (by omega), true⟩
      trace := s.trace ++ [.rxRearm] }

/-- R134, R136, R138, R139, R146: the eighth byte of a group with both markers enqueues the frame, whatever its checksum. -/
def Obligations.EighthByteEnqueuesTheFrame : Prop :=
  ∀ (s : State) (b : Byte), s.rx.armed = true → s.rx.state = .accumulating → s.rx.index = 7 →
    s.rx.buf[0] = s.params.startMarker → b = s.params.endMarker → s.up.fifo = true → s.fifo.count < 16 →
    exec (.rxByte b) s = .next { s with
      rx    := ⟨.awaitingStart, 0, s.rx.buf.set 7 b, true⟩
      fifo  := ⟨s.fifo.slot.set s.fifo.tail (decodeFrame s.params (s.rx.buf.set 7 b)), s.fifo.head,
        ⟨(s.fifo.tail.val + 1) % 16, by omega⟩, s.fifo.count + 1⟩
      trace := s.trace ++ [.rxRearm] }

/-- R135, R137, R138, R139, R145: the eighth byte of a group with a wrong marker, or of a group with both markers that finds the
buffer full, is reported with the eight raw bytes and answered by one ERROR response with the fields that ISR_ERROR_FIELDS
gives for that kind and those eight bytes: zeros under the default, and without it free values, on which nothing more is
said (entry 2). The ring buffer is untouched and reception is armed again. The markers are tested first (R295). Report,
response and re-arm stand in the trace in the order of the pseudocode (entry 23). -/
def Obligations.EighthByteReportsAReceiverError : Prop :=
  ∀ (s : State) (b : Byte) (k : ErrorKind), s.rx.armed = true → s.rx.state = .accumulating → s.rx.index = 7 →
    ((s.rx.buf[0] ≠ s.params.startMarker ∨ b ≠ s.params.endMarker) ∧ k = .malformedFrame ∨
      s.rx.buf[0] = s.params.startMarker ∧ b = s.params.endMarker ∧ s.up.fifo = true ∧ s.fifo.count = 16 ∧
        k = .bufferFull) →
    ∃ (e : ErrorFields) (u : State),
      e = Sys2Proof.isrErrorFields s.params k (s.rx.buf.set 7 b) ∧
      (s.params.isrErrorFields = .zero → e = ⟨0, 0, 0⟩) ∧
      Answers ⟨s.params.startMarker, s.params.statusError, e.channel, e.signal, e.value,
          cksum s.params.statusError e.channel e.signal e.value, s.params.endMarker⟩
        { s with rx    := ⟨.awaitingStart, 0, s.rx.buf.set 7 b, true⟩
                 trace := s.trace ++ [.errReport k (.raw (s.rx.buf.set 7 b))] } u ∧
      exec (.rxByte b) s = .next { u with trace := u.trace ++ [.rxRearm] }

/-- R142: INIT_RX. -/
def Obligations.InitRxArmsReception : Prop :=
  ∀ s : State, exec .initRx s = .next { s with
    rx    := ⟨.awaitingStart, 0, #v[0, 0, 0, 0, 0, 0, 0, 0], true⟩
    trace := s.trace ++ [.rxRearm] }

/-- R139, R323: every RX_BYTE that completes leaves reception armed, its last output being the re-arm, and no instruction
disarms it. -/
def Obligations.ReceptionStaysArmed : Prop :=
  ∀ (i : Instr) (s t : State), exec i s = .next t →
    (s.rx.armed = true → t.rx.armed = true) ∧
    (∀ b, i = .rxByte b → t.rx.armed = true ∧ t.trace.getLast? = some .rxRearm)

/-- R141, R64: the eight bytes of a frame with both markers, received from AwaitingStart, put exactly that frame into the next
free slot, whatever its other bytes are, and put out nothing but the eight re-arms. -/
def Obligations.EightBytesDeliverTheFrame : Prop :=
  ∀ (s : State) (f : Frame), s.rx.armed = true → s.rx.state = .awaitingStart → s.up.fifo = true → s.fifo.count < 16 →
    markersValid s.params f = true →
    receiveAll (encodeFrame s.params f).toList s = .next { s with
      rx    := ⟨.awaitingStart, 0, encodeFrame s.params f, true⟩
      fifo  := ⟨s.fifo.slot.set s.fifo.tail f, s.fifo.head, ⟨(s.fifo.tail.val + 1) % 16, by omega⟩, s.fifo.count + 1⟩
      trace := s.trace ++ List.replicate 8 .rxRearm }

/-- R44, R208: a received byte neither reads nor writes the capture channels, the consumer, Signal Access or the reply of an
earlier operation: with other values there, everything else comes out the same. -/
def Obligations.ByteStepIgnoresCaptureAndConsumer : Prop :=
  ∀ (s t : State) (b : Byte) (k : Vector CapChannel 3) (z : Consumer) (a : SignalAccess) (r : Reply),
    exec (.rxByte b) s = .next t →
    exec (.rxByte b) { s with cap := k, cons := z, sa := a, reply := r } =
      .next { t with cap := k, cons := z, sa := a, reply := r } ∧
    t.cap = s.cap ∧ t.cons = s.cons ∧ t.sa = s.sa ∧ t.reply = s.reply

/-! ### Ring buffer (41_ring_buffer.md) -/

/-- R160, R161, R164, R166: ENQUEUE below 16 frames stores at tail, advances tail modulo 16 and counts one more; at 16 it says
false and changes nothing. -/
def Obligations.EnqueueStoresOrRejects : Prop :=
  ∀ (s : State) (f : Frame), s.up.fifo = true →
    (s.fifo.count < 16 → exec (.enqueue f) s = .next { s with
      fifo  := ⟨s.fifo.slot.set s.fifo.tail f, s.fifo.head, ⟨(s.fifo.tail.val + 1) % 16, by omega⟩, s.fifo.count + 1⟩
      reply := .bool true }) ∧
    (s.fifo.count = 16 → exec (.enqueue f) s = .next { s with reply := .bool false })

/-- R165, R163, R166: the four micro-steps of DEQUEUE, each with its frame; on an empty buffer it returns none. Three points
are the model's, not the spec's: one DEQUEUE instruction is one micro-step, chosen by cons.phase, and it begins from Idle as
well as from Deq1 (entry 14, DEDUCED); a DEQUEUE in phase Service counts as a second consumer and is refused (entry 21,
DEDUCED from U7, which does not name this case, with R240); the result is returned in the field `reply` (entry 9, DESIGN
CHOICE). -/
def Obligations.DequeueMicroSteps : Prop :=
  ∀ s : State, s.up.fifo = true →
    (s.cons.phase = .idle ∨ s.cons.phase = .deq1 →
      (s.fifo.count = 0 → exec .dequeue s = .next { s with
        cons := { s.cons with phase := .idle }, reply := .dequeued none }) ∧
      (s.fifo.count > 0 → exec .dequeue s = .next { s with cons := { s.cons with phase := .deq2 } })) ∧
    (s.cons.phase = .deq2 → exec .dequeue s = .next { s with cons := ⟨.deq3, some (s.fifo.slot[s.fifo.head])⟩ }) ∧
    (s.cons.phase = .deq3 → exec .dequeue s = .next { s with
      fifo := { s.fifo with head := ⟨(s.fifo.head.val + 1) % 16, by omega⟩ }
      cons := { s.cons with phase := .deq4 } }) ∧
    (s.cons.phase = .deq4 → exec .dequeue s = .next { s with
      fifo  := { s.fifo with count := s.fifo.count - 1 }
      cons  := { s.cons with phase := .service }
      reply := .dequeued s.cons.frame }) ∧
    (s.cons.phase = .service → exec .dequeue s = .refused .secondConsumer)

/-- R162, R168: the four micro-steps without an interrupt return the oldest queued frame and leave the others in order. That
each is one DEQUEUE instruction, and that the first may start from Idle, is the model's (entry 14, DEDUCED). -/
def Obligations.DequeueReturnsTheOldestFrame : Prop :=
  ∀ (s : State) (f : Frame) (fs : List Frame), s.up.fifo = true → s.cons.phase = .idle ∨ s.cons.phase = .deq1 →
    s.queued = f :: fs →
    ∃ t, andThen (exec .dequeue s) (fun a => andThen (exec .dequeue a) fun b =>
        andThen (exec .dequeue b) fun c => exec .dequeue c) = .next t ∧
      t.reply = .dequeued (some f) ∧ t.queued = fs ∧ t.fifo.count + 1 = s.fifo.count ∧ t.fifo.slot = s.fifo.slot ∧
      t.cons = ⟨.service, some f⟩

/-- R169: from an empty buffer sixteen ENQUEUEs succeed and queue their frames in order, and the seventeenth says false and
leaves them as they are. -/
def Obligations.SeventeenthEnqueueFails : Prop :=
  ∀ (s : State) (fs : List Frame) (f : Frame), s.up.fifo = true → s.fifo.count = 0 → s.fifo.tail = s.fifo.head →
    s.cons.phase ≠ .deq4 → fs.length = 16 →
    ∃ t, enqueueAll fs s = .next t ∧ t.reply = .bool true ∧ t.queued = fs ∧ t.fifo.count = 16 ∧
      t.fifo.tail = s.fifo.tail ∧ t.fifo.head = s.fifo.head ∧
      exec (.enqueue f) t = .next { t with reply := .bool false }

/-- R173, U8: INIT_FIFO empties the buffer, and is refused while the consumer is inside a DEQUEUE. -/
def Obligations.InitFifoEmptiesTheBuffer : Prop :=
  ∀ s : State,
    (s.cons.phase = .idle ∨ s.cons.phase = .deq1 ∨ s.cons.phase = .service →
      exec .initFifo s = .next { s with
        fifo := ⟨.replicate 16 ⟨0, 0, 0, 0, 0, 0, 0⟩, 0, 0, 0⟩, up := { s.up with fifo := true } }) ∧
    (s.cons.phase = .deq2 ∨ s.cons.phase = .deq3 ∨ s.cons.phase = .deq4 →
      exec .initFifo s = .refused .initFifoInsideDequeue)

/-- R29, R168, R170: seen through the queued frames, every step of the machine in a state that keeps the invariant does one of
four things: nothing to the queue; one frame more at its end, below 16; the oldest frame taken, which is then the
consumer's frame; or INIT_FIFO, everything gone. -/
def Obligations.RingBufferRefinesAQueue : Prop :=
  ∀ s t : State, s.Inv → step s = .next t →
    t.queued = s.queued ∨
    (∃ f, t.queued = s.queued ++ [f] ∧ s.fifo.count < 16) ∨
    (∃ f, s.queued = f :: t.queued ∧ t.cons = ⟨.deq4, some f⟩ ∧ s.cons.phase = .deq3) ∨
    (t.queued = [] ∧ t.fifo.count = 0 ∧ ∃ w rest, s.env.inbox = .event w :: rest ∧ decode s.params w = .ok .initFifo)

/-- U9, U10, R130: an event is refused by name when reception is not armed, when its engine was not initialised, or when its
timestamp lies above COUNTER_MAX. -/
def Obligations.EventsOutsideTheirConditionsAreRefused : Prop :=
  ∀ (s : State) (b : Byte) (f : Frame) (c : ChannelIndex) (ts : Nat),
    (s.rx.armed = false → exec (.rxByte b) s = .refused .receiverNotArmed) ∧
    (s.rx.armed = true → s.rx.state = .accumulating → s.rx.index = 7 → s.rx.buf[0] = s.params.startMarker →
      b = s.params.endMarker → s.up.fifo = false → exec (.rxByte b) s = .refused .fifoNotInitialised) ∧
    (s.up.fifo = false → exec (.enqueue f) s = .refused .fifoNotInitialised ∧
      exec .dequeue s = .refused .fifoNotInitialised) ∧
    (s.up.cap = false → exec (.edge c ts) s = .refused .captureNotInitialised ∧
      exec (.sampleTake c) s = .refused .captureNotInitialised) ∧
    (s.up.cap = false → validate f = true → channelIndex s.params f.channel = some c →
      exec (.getPwmInput f) s = .refused .captureNotInitialised) ∧
    (s.up.cap = true → ts > s.params.counterMax → exec (.edge c ts) s = .refused .timestampOutOfRange)

/-! ### Requests and responses (44_dispatcher.md) -/

/-- R244: PING, whatever its channel, signal and value. -/
def Obligations.PingAnswersTheVersion : Prop :=
  ∀ (s : State) (f : Frame), validate f = true →
    ∃ t, exec (.ping f) s = .next t ∧
      Answers ⟨s.params.startMarker, s.params.statusOk, s.params.chSystem, s.params.sigSystem, s.params.fwVersion,
        cksum s.params.statusOk s.params.chSystem s.params.sigSystem s.params.fwVersion, s.params.endMarker⟩ s t

/-- R245, R255, R256: a GET of PWM-input answers the duty and clears the flag, or fails with UnreadableSample. -/
def Obligations.GetPwmInputAnswersTheDuty : Prop :=
  ∀ (s : State) (f : Frame) (c : ChannelIndex) (cmd : Byte), validate f = true → s.up.cap = true →
    channelIndex s.params f.channel = some c →
    cmd = (if s.params.getOkCommand = .channelCode then f.channel else s.params.statusOk) →
    ∃ t, exec (.getPwmInput f) s = .next t ∧
      (s.cap[c].sampleReady = true →
        Answers ⟨s.params.startMarker, cmd, f.channel, f.signal, s.cap[c].dutyValue,
            cksum cmd f.channel f.signal s.cap[c].dutyValue, s.params.endMarker⟩
          { s with cap := s.cap.set c { s.cap[c] with sampleReady := false } } t) ∧
      (s.cap[c].sampleReady = false → Fails .unreadableSample f s t)

/-- R246, R247, R255, R256: a GET of current or temperature answers the getter's value without a range check; the sentinel
0xFFFF is InvalidChannel. -/
def Obligations.GetCurrentAndTemperatureAnswerTheGetter : Prop :=
  ∀ (s : State) (f : Frame) (c : ChannelIndex) (q : Quantity) (i : Instr) (v : U16) (cmd : Byte),
    (q = .current ∧ i = .getCurrent f ∧ v = s.sa.current[c] ∨
      q = .temperature ∧ i = .getTemperature f ∧ v = s.sa.temperature[c]) →
    validate f = true → channelIndex s.params f.channel = some c →
    cmd = (if s.params.getOkCommand = .channelCode then f.channel else s.params.statusOk) →
    ∃ t, exec i s = .next t ∧
      (v ≠ 0xFFFF#16 →
        Answers ⟨s.params.startMarker, cmd, f.channel, f.signal, v, cksum cmd f.channel f.signal v, s.params.endMarker⟩
          { s with trace := s.trace ++ [.saGet q c v] } t) ∧
      (v = 0xFFFF#16 → Fails .invalidChannel f { s with trace := s.trace ++ [.saGet q c v] } t)

/-- R248, R249, R255, R260: a SET of current or temperature is answered as the setter says; a setter that says false stored
nothing. `a` is the setter's answer: the environment's next one where its list has one, and any where it has none. A setter
that stored something sets what the getters return from then on, to PWM values the collaborator chooses (R259; entry 5). -/
def Obligations.SetCurrentAndTemperatureAnswerTheSetter : Prop :=
  ∀ (s : State) (f : Frame) (c : ChannelIndex) (q : Quantity) (i : Instr),
    (q = .current ∧ i = .setCurrent f ∨ q = .temperature ∧ i = .setTemperature f) →
    validate f = true → channelIndex s.params f.channel = some c →
    ∃ (a : SetterAnswer) (t : State), exec i s = .next t ∧ (∀ u, s.env.setterAnswers.head? = some u → a = u) ∧
      (∀ cur temp, a = .stored cur temp →
        Answers ⟨s.params.startMarker, s.params.statusOk, f.channel, f.signal, f.value,
            cksum s.params.statusOk f.channel f.signal f.value, s.params.endMarker⟩
          { s with sa    := .ofPwm cur temp
                   env   := { s.env with setterAnswers := s.env.setterAnswers.tail, draws := s.env.draws + 1 }
                   trace := s.trace ++ [.saSet q c f.value true] } t) ∧
      (a = .refused →
        Fails .invalidChannel f
          { s with env   := { s.env with setterAnswers := s.env.setterAnswers.tail, draws := s.env.draws + 1 }
                   trace := s.trace ++ [.saSet q c f.value false] } t)

/-- R250, R251, R252: SET of PWM-input, GET or SET of any other signal (on a channel 1 to 3), and an unknown command (on any
channel) fail with InvalidSignalForOperation. -/
def Obligations.UnroutedRequestsFail : Prop :=
  ∀ (s : State) (f : Frame), validate f = true →
    (∀ (c : ChannelIndex) (i : Instr), channelIndex s.params f.channel = some c →
      i = .setPwmInput f ∨ i = .getOther f ∨ i = .setOther f →
      ∃ t, exec i s = .next t ∧ Fails .invalidSignalForOperation f s t) ∧
    (∃ t, exec (.unknownCmd f) s = .next t ∧ Fails .invalidSignalForOperation f s t)

/-- R242: whatever a request's row, a wrong checksum is answered ERROR first of all, with no other effect. -/
def Obligations.WrongChecksumFailsFirst : Prop :=
  ∀ (s : State) (i : Instr) (f : Frame), requestFrame i = some f → validate f = false →
    ∃ t, exec i s = .next t ∧ Fails .checksumMismatch f s t

/-- R243, R283 (a): a GET or SET whose channel byte gives no index fails with InvalidChannel, whatever its signal, with no other
effect; a PING and an unknown command do not look at the channel. -/
def Obligations.GetOrSetOfNoChannelFails : Prop :=
  ∀ (s : State) (i : Instr) (f : Frame), requestFrame i = some f → i ≠ .ping f → i ≠ .unknownCmd f →
    validate f = true → channelIndex s.params f.channel = none →
    ∃ t, exec i s = .next t ∧ Fails .invalidChannel f s t

/-- R257: with the capture engine initialised every request completes, with exactly one response. -/
def Obligations.EveryRequestIsAnsweredExactlyOnce : Prop :=
  ∀ (s : State) (i : Instr) (f : Frame), requestFrame i = some f → s.up.cap = true →
    ∃ t, exec i s = .next t ∧ t.sentCount = s.sentCount + 1

/-- R260, R290: a request that reports an error of its own (any kind but TransmitTimeout) leaves Signal Access, the capture
channels, the ring buffer, the receiver and the consumer as they were. -/
def Obligations.ErrorPathsHaveNoSideEffect : Prop :=
  ∀ (s t : State) (i : Instr) (f : Frame) (new : List Output) (k : ErrorKind),
    requestFrame i = some f → exec i s = .next t → t.trace = s.trace ++ new → k ≠ .transmitTimeout →
    .errReport k (.frame f) ∈ new →
    t.sa = s.sa ∧ t.cap = s.cap ∧ t.fifo = s.fifo ∧ t.rx = s.rx ∧ t.cons = s.cons

/-- R262, R79: the service of a request neither reads nor writes the receiver or the ring buffer: with other values there,
everything else comes out the same. -/
def Obligations.ServiceIgnoresReceiverAndRingBuffer : Prop :=
  ∀ (s t : State) (i : Instr) (f : Frame) (r : Receiver) (q : RingBuffer),
    requestFrame i = some f → exec i s = .next t →
    exec i { s with rx := r, fifo := q } = .next { t with rx := r, fifo := q } ∧ t.rx = s.rx ∧ t.fifo = s.fifo

/-- R100, R145, R183, R244, R254, R255, R256: each response row puts out one frame with both markers, its fields and a fresh
checksum. That a response row is an instruction, and which fields are its operands, is the model's choice (entry 25); by it
RSP_ISR_ERROR sends whatever three fields it is given, nonzero ones under the default ISR_ERROR_FIELDS too, where R145 has
the receiver send zeros (EighthByteReportsAReceiverError). -/
def Obligations.ResponseRowsTransmitOneFrame : Prop :=
  ∀ (s : State) (c g cmd : Byte) (v : U16),
    cmd = (if s.params.getOkCommand = .channelCode then c else s.params.statusOk) →
    (∃ t, exec (.rspGetOk c g v) s = .next t ∧
      Answers ⟨s.params.startMarker, cmd, c, g, v, cksum cmd c g v, s.params.endMarker⟩ s t) ∧
    (∃ t, exec (.rspSetOk c g v) s = .next t ∧
      Answers ⟨s.params.startMarker, s.params.statusOk, c, g, v, cksum s.params.statusOk c g v, s.params.endMarker⟩ s t) ∧
    (∃ t, exec .rspPingOk s = .next t ∧
      Answers ⟨s.params.startMarker, s.params.statusOk, s.params.chSystem, s.params.sigSystem, s.params.fwVersion,
        cksum s.params.statusOk s.params.chSystem s.params.sigSystem s.params.fwVersion, s.params.endMarker⟩ s t) ∧
    (∃ t, exec (.rspError c g v) s = .next t ∧
      Answers ⟨s.params.startMarker, s.params.statusError, c, g, v, cksum s.params.statusError c g v,
        s.params.endMarker⟩ s t) ∧
    (∃ t, exec (.rspIsrError c g v) s = .next t ∧
      Answers ⟨s.params.startMarker, s.params.statusError, c, g, v, cksum s.params.statusError c g v,
        s.params.endMarker⟩ s t)

/-- Source scenario S7 of 95_test_vectors.md, with R248, R249, R246, R247, R259: after a SET of either quantity that the setter
stored, a GET of the quantity and channel that were set answers the value the setter stored there. That the one answer of a
setter fixes what all six getters return, so that the same holds of a GET of the other quantity or of another channel, is
the model's choice (entry 5); so is where the answer comes from: the environment's list, or a free value after its end. -/
def Obligations.GetAfterSetAnswersTheStoredValue : Prop :=
  ∀ (s t : State) (f g : Frame) (c d : ChannelIndex) (cur temp : Vector (Fin 1024) 3)
    (i j : Instr) (p q : Quantity) (v : U16) (cmd : Byte),
    (p = .current ∧ i = .setCurrent f ∨ p = .temperature ∧ i = .setTemperature f) →
    (j = .getCurrent g ∧ q = .current ∧ v.toNat = cur[d].val ∨
      j = .getTemperature g ∧ q = .temperature ∧ v.toNat = temp[d].val) →
    validate f = true → validate g = true →
    channelIndex s.params f.channel = some c → channelIndex s.params g.channel = some d →
    nextSetterAnswer p c f.value s = .stored cur temp → exec i s = .next t →
    cmd = (if s.params.getOkCommand = .channelCode then g.channel else s.params.statusOk) →
    ∃ u, exec j t = .next u ∧
      Answers ⟨s.params.startMarker, cmd, g.channel, g.signal, v, cksum cmd g.channel g.signal v, s.params.endMarker⟩
        { t with trace := t.trace ++ [.saGet q d v] } u

/-! ### The whole machine -/

/-- R43, R45: the reset state, which is the model's launch state (entries 1, 7, 8), keeps the invariant. -/
def Obligations.ResetKeepsTheInvariant : Prop := State.reset.Inv

/-- R21, R22, R28, R29, R31 to R39, R170, R259, R323, R324: every step keeps the invariant, whatever the environment delivers. -/
def Obligations.EveryStepKeepsTheInvariant : Prop := ∀ s t : State, s.Inv → step s = .next t → t.Inv

/-- R291, R338: under the invariant no step ends in a fault; a turn of the consumer, any byte, and any edge with a timestamp in
range is always a next state. That an empty inbox gives the consumer its turn is the model's choice (entry 3). -/
def Obligations.NoFatalCondition : Prop :=
  ∀ s : State, s.Inv →
    (∀ e, step s ≠ .fault e) ∧
    (s.env.inbox = [] → ∃ t, step s = .next t) ∧
    (∀ rest, s.env.inbox = .turn :: rest → ∃ t, step s = .next t) ∧
    (∀ b rest, s.env.inbox = .event ⟨.rxByte, [b]⟩ :: rest → ∃ t, step s = .next t) ∧
    (∀ w c ts rest, s.env.inbox = .event w :: rest → decode s.params w = .ok (.edge c ts) → ts ≤ s.params.counterMax →
      ∃ t, step s = .next t)

/-- R241, R257, R261, R338: when no event arrives, the consumer empties the ring buffer in at most five steps a frame and two
more, is Idle then, and has transmitted exactly one response for every frame queued or in service. The bound counts the
service of a frame as one step (entry 13, DEDUCED, unsafe), and that the consumer moves when the inbox is empty is the
model's way to say that no event arrives (entry 3, DESIGN CHOICE). -/
def Obligations.DrainAnswersEveryFrame : Prop :=
  ∀ s : State, s.Inv → s.env.inbox = [] →
    ∃ n t, n ≤ 5 * s.fifo.count + 2 ∧ Host.Core.run Sys2Proof.core n s = .next t ∧
      t.fifo.count = 0 ∧ t.cons = ⟨.idle, none⟩ ∧
      t.sentCount = s.sentCount + s.fifo.count + (if s.cons.phase = .service then 1 else 0)

/-- R262, R289: a step transmits nothing, or one response, and then it is the service of the consumer's frame or the byte
that completes a group of eight. The third case is the model's own (entry 10): a request or a response row that the inbox
names by its port, which in the hardware no event does. An event on any other port, the combinational operations and
ENQUEUE among them, transmits nothing. -/
def Obligations.TransmitsOnlyInAnswer : Prop :=
  ∀ s t : State, step s = .next t →
    t.sentCount = s.sentCount ∨
    (t.sentCount = s.sentCount + 1 ∧
      ((s.cons.phase = .service ∧ ∀ w rest, s.env.inbox ≠ .event w :: rest) ∨
        (s.rx.state = .accumulating ∧ s.rx.index = 7 ∧ ∃ b rest, s.env.inbox = .event ⟨.rxByte, [b]⟩ :: rest) ∨
        (∃ w rest, s.env.inbox = .event w :: rest ∧
          (w.port = .request ∨ w.port = .rspGetOk ∨ w.port = .rspSetOk ∨ w.port = .rspPingOk ∨ w.port = .rspError ∨
            w.port = .rspIsrError))))

/-- R322, R43, R142, R173, R210: INIT_FIFO, INIT_CAPTURE, INIT_RX in this order, from any state in which the consumer is not
inside a DEQUEUE and the timer reports a maximum of at least 1, leave every engine at its reset value. -/
def Obligations.BringUpReachesTheResetTable : Prop :=
  ∀ s : State, s.cons.phase.insideDequeue = false → s.env.counterMax ≥ 1 →
    andThen (exec .initFifo s) (fun a => andThen (exec .initCapture a) fun b => exec .initRx b) =
      .next { s with
        rx     := State.reset.rx
        fifo   := State.reset.fifo
        cap    := State.reset.cap
        up     := ⟨true, true⟩
        params := { s.params with counterMax := s.env.counterMax }
        trace  := s.trace ++ [.rxRearm] }

/-- R40, R9 (g), R335 (d): no instruction changes a parameter, but INIT_CAPTURE, which reads COUNTER_MAX. -/
def Obligations.ParametersAreFixed : Prop :=
  ∀ (i : Instr) (s t : State), exec i s = .next t →
    t.params = { s.params with counterMax := t.params.counterMax } ∧ (i ≠ .initCapture → t.params = s.params)

/-- With nothing queued and no event coming (the quiescent block of R337) the idle consumer finds the buffer empty, DEQUEUE
returns none (R163), and nothing else changes. Three points are the model's, not the spec's: a step with an empty inbox is
the consumer's (entry 3, DESIGN CHOICE), it runs the test of DEQUEUE straight from Idle, there being no step for the yield
of R241 (entry 14, DEDUCED), and the result is returned in the field `reply` (entry 9, DESIGN CHOICE). -/
def Obligations.QuiescentMachineWaits : Prop :=
  ∀ s : State, s.params.valid = true → s.up.fifo = true → s.env.inbox = [] → s.cons.phase = .idle → s.fifo.count = 0 →
    step s = .next { s with reply := .dequeued none }

/-- Source scenario S10 of 95_test_vectors.md, with R141, R165, R242: the eight bytes of a frame with both markers and a wrong
checksum, received by an idle machine with an empty buffer, are answered thirteen steps later by one ERROR response that
mirrors the frame; Signal Access and the capture channels are as before. The number thirteen rests on the model's
bookkeeping: one event of the inbox a step and the consumer's turns when it is empty (entry 3), the service as one step
(entry 13, DEDUCED, unsafe), one micro-step a DEQUEUE and Deq1 after the service (entry 14). The order of outputs on
different ports is that of the pseudocode (entry 23, DEDUCED, unsafe). -/
def Obligations.CorruptedFrameIsAnsweredWithError : Prop :=
  ∀ (s : State) (f : Frame), s.Inv → s.rx.state = .awaitingStart → s.fifo.count = 0 → s.cons.phase = .idle →
    markersValid s.params f = true → validate f = false →
    s.env.inbox = (encodeFrame s.params f).toList.map (fun b => .event ⟨.rxByte, [b]⟩) →
    ∃ t r, Host.Core.run Sys2Proof.core 13 s = .next t ∧
      t.trace = s.trace ++ List.replicate 8 .rxRearm ++ [.errReport .checksumMismatch (.frame f)] ++
        sentOutputs s.params
          ⟨s.params.startMarker, s.params.statusError, f.channel, f.signal, f.value,
            cksum s.params.statusError f.channel f.signal f.value, s.params.endMarker⟩ r ∧
      t.cap = s.cap ∧ t.sa = s.sa ∧ t.fifo.count = 0 ∧ t.cons = ⟨.deq1, none⟩
end

