-- ==== Sys2Proof/Laws/Codec.lean ====
section
/-! SUPPORT. Laws of the pure functions: the parameters, the value bytes, numbers as bytes, the response frames. -/

namespace Sys2Proof

/-- Keeping R9 is its constraints. -/
theorem valid_iff (p : Params) : p.valid = true ↔ p.constraints := decide_eq_true_iff

/-! ### Value bytes (R11, R62, R97) -/

theorem valueLow_toNat (v : U16) : (valueLow v).toNat = v.toNat % 256 := by simp [valueLow]

theorem valueHigh_toNat (v : U16) : (valueHigh v).toNat = v.toNat / 256 := by
  have := v.isLt
  simp [valueHigh, Nat.shiftRight_eq_div_pow]
  omega

theorem joinBytes_toNat (hi lo : Byte) : (joinBytes hi lo).toNat = hi.toNat * 256 + lo.toNat := by
  have hlo := lo.isLt
  have happ : (joinBytes hi lo).toNat = hi.toNat <<< 8 ||| lo.toNat := BitVec.toNat_append hi lo
  have hadd := Nat.two_pow_add_eq_or_of_lt (i := 8) hlo hi.toNat
  rw [happ, Nat.shiftLeft_eq, Nat.mul_comm, ← hadd, Nat.mul_comm]

/-- A value is its two bytes. -/
@[simp] theorem joinBytes_value (v : U16) : joinBytes (valueHigh v) (valueLow v) = v := by
  apply BitVec.eq_of_toNat_eq
  rw [joinBytes_toNat, valueHigh_toNat, valueLow_toNat]
  omega

@[simp] theorem valueLow_joinBytes (hi lo : Byte) : valueLow (joinBytes hi lo) = lo := by
  apply BitVec.eq_of_toNat_eq
  have := lo.isLt
  rw [valueLow_toNat, joinBytes_toNat]
  omega

@[simp] theorem valueHigh_joinBytes (hi lo : Byte) : valueHigh (joinBytes hi lo) = hi := by
  apply BitVec.eq_of_toNat_eq
  have := lo.isLt
  rw [valueHigh_toNat, joinBytes_toNat]
  omega

/-- Exclusive or goes through to the two bytes. -/
theorem valueLow_xor (v e : U16) : valueLow (v ^^^ e) = valueLow v ^^^ valueLow e := BitVec.extractLsb'_xor

theorem valueHigh_xor (v e : U16) : valueHigh (v ^^^ e) = valueHigh v ^^^ valueHigh e := BitVec.extractLsb'_xor

/-- VALIDATE as an equation (R181). -/
theorem validate_iff (f : Frame) : validate f = true ↔ f.checksum = cksum f.command f.channel f.signal f.value := by
  simp [validate]

/-- MARKERS_VALID as equations (R189). -/
theorem markersValid_iff (p : Params) (f : Frame) :
    markersValid p f = true ↔ f.startMark = p.startMarker ∧ f.endMark = p.endMarker := by
  simp [markersValid]

/-- A sealed frame has both markers and validates (R100, R183). -/
@[simp] theorem markersValid_sealFrame (p : Params) (c h g : Byte) (v : U16) :
    markersValid p (sealFrame p c h g v) = true := by
  simp [markersValid, sealFrame]

@[simp] theorem validate_sealFrame (p : Params) (c h g : Byte) (v : U16) : validate (sealFrame p c h g v) = true := by
  simp [validate, sealFrame]

/-! ### Numbers as bytes -/

@[simp] theorem natBytes_length (k n : Nat) : (natBytes k n).length = k := by
  induction k with
  | zero => rfl
  | succ k ih => simp [natBytes, ih]

/-- Reading a list of bytes with a number already read before it. -/
theorem foldl_bytes (l : List Byte) (m : Nat) :
    l.foldl (fun n b => n * 256 + b.toNat) m = m * 256 ^ l.length + ofBytes l := by
  induction l generalizing m with
  | nil => simp [ofBytes]
  | cons b l ih =>
    simp only [List.foldl_cons, List.length_cons, ofBytes]
    rw [ih, ih (0 * 256 + b.toNat)]
    ring

/-- `k` bytes of `n` spell `n` modulo `256 ^ k`. -/
theorem ofBytes_natBytes (k n : Nat) : ofBytes (natBytes k n) = n % 256 ^ k := by
  induction k with
  | zero => simp [natBytes, ofBytes, Nat.mod_one]
  | succ k ih =>
    have hfold : ofBytes (natBytes (k + 1) n) = (n / 256 ^ k % 256) * 256 ^ k + ofBytes (natBytes k n) := by
      simp only [natBytes, ofBytes, List.foldl_cons]
      rw [foldl_bytes]
      simp [ofBytes]
    rw [hfold, ih, pow_succ, Nat.mod_mul]
    ring

/-- A timestamp fits its bytes. -/
theorem counterMax_lt_stampBytes (p : Params) : p.counterMax < 256 ^ stampBytes p := by
  have hlog : p.counterMax < 2 ^ (Nat.log2 p.counterMax + 1) := Nat.lt_log2_self
  have hpow : (256 : Nat) ^ stampBytes p = 2 ^ (8 * stampBytes p) := by
    rw [pow_mul]; norm_num
  rw [hpow]
  refine lt_of_lt_of_le hlog (Nat.pow_le_pow_right (by norm_num) ?_)
  unfold stampBytes
  omega

/-- A timestamp operand is read as it was written. -/
theorem ofBytes_stamp (p : Params) {ts : Nat} (h : ts ≤ p.counterMax) : ofBytes (natBytes (stampBytes p) ts) = ts := by
  rw [ofBytes_natBytes, Nat.mod_eq_of_lt (lt_of_le_of_lt h (counterMax_lt_stampBytes p))]

/-! ### The decoder (R99, R100, R103) -/

/-- Every row of the request map is an operation of the port `request`. -/
theorem requestOf_port (p : Params) (f : Frame) : (requestOf p f).port = .request := by
  unfold requestOf
  split_ifs <;> rfl

/-- Eight operand bytes decode to an operation of their own port. -/
theorem decodeEight_port {p : Params} {port : Port} {b : Bytes8} {i : Instr} (h : decodeEight p port b = .ok i) :
    i.port = port := by
  cases port <;> simp only [decodeEight, decodeResponse, decodeRequest] at h <;> (try split_ifs at h) <;> cases h <;>
    first | rfl | exact requestOf_port _ _

/-- What is decoded is an operation of the port it arrived on. -/
theorem decode_port {p : Params} {w : PortWord} {i : Instr} (h : decode p w = .ok i) : i.port = w.port := by
  obtain ⟨port, bytes⟩ := w
  cases port <;>
    simp only [decode, decodeRxByte, decodeBare, decodeCksum, decodeEdge, decodePair, decodeSampleTake] at h <;>
    repeat (split at h)
  all_goals first | cases h; rfl | exact decodeEight_port h | cases h

end Sys2Proof
end

