-- ==== Sys2Proof/Laws/State.lean ====
section
/-! SUPPORT. What each named update of the state leaves in each field. -/

namespace Sys2Proof.Machine

/-! ### `setRx` -/

@[simp] theorem setRx_params (s : State) (r : Receiver) : (s.setRx r).params = s.params := rfl
@[simp] theorem setRx_rx (s : State) (r : Receiver) : (s.setRx r).rx = r := rfl
@[simp] theorem setRx_fifo (s : State) (r : Receiver) : (s.setRx r).fifo = s.fifo := rfl
@[simp] theorem setRx_cap (s : State) (r : Receiver) : (s.setRx r).cap = s.cap := rfl
@[simp] theorem setRx_cons (s : State) (r : Receiver) : (s.setRx r).cons = s.cons := rfl
@[simp] theorem setRx_sa (s : State) (r : Receiver) : (s.setRx r).sa = s.sa := rfl
@[simp] theorem setRx_up (s : State) (r : Receiver) : (s.setRx r).up = s.up := rfl
@[simp] theorem setRx_env (s : State) (r : Receiver) : (s.setRx r).env = s.env := rfl
@[simp] theorem setRx_reply (s : State) (r : Receiver) : (s.setRx r).reply = s.reply := rfl
@[simp] theorem setRx_trace (s : State) (r : Receiver) : (s.setRx r).trace = s.trace := rfl

/-! ### `setFifo` -/

@[simp] theorem setFifo_params (s : State) (q : RingBuffer) : (s.setFifo q).params = s.params := rfl
@[simp] theorem setFifo_rx (s : State) (q : RingBuffer) : (s.setFifo q).rx = s.rx := rfl
@[simp] theorem setFifo_fifo (s : State) (q : RingBuffer) : (s.setFifo q).fifo = q := rfl
@[simp] theorem setFifo_cap (s : State) (q : RingBuffer) : (s.setFifo q).cap = s.cap := rfl
@[simp] theorem setFifo_cons (s : State) (q : RingBuffer) : (s.setFifo q).cons = s.cons := rfl
@[simp] theorem setFifo_sa (s : State) (q : RingBuffer) : (s.setFifo q).sa = s.sa := rfl
@[simp] theorem setFifo_up (s : State) (q : RingBuffer) : (s.setFifo q).up = s.up := rfl
@[simp] theorem setFifo_env (s : State) (q : RingBuffer) : (s.setFifo q).env = s.env := rfl
@[simp] theorem setFifo_reply (s : State) (q : RingBuffer) : (s.setFifo q).reply = s.reply := rfl
@[simp] theorem setFifo_trace (s : State) (q : RingBuffer) : (s.setFifo q).trace = s.trace := rfl

/-! ### `setCons` -/

@[simp] theorem setCons_params (s : State) (k : Consumer) : (s.setCons k).params = s.params := rfl
@[simp] theorem setCons_rx (s : State) (k : Consumer) : (s.setCons k).rx = s.rx := rfl
@[simp] theorem setCons_fifo (s : State) (k : Consumer) : (s.setCons k).fifo = s.fifo := rfl
@[simp] theorem setCons_cap (s : State) (k : Consumer) : (s.setCons k).cap = s.cap := rfl
@[simp] theorem setCons_cons (s : State) (k : Consumer) : (s.setCons k).cons = k := rfl
@[simp] theorem setCons_sa (s : State) (k : Consumer) : (s.setCons k).sa = s.sa := rfl
@[simp] theorem setCons_up (s : State) (k : Consumer) : (s.setCons k).up = s.up := rfl
@[simp] theorem setCons_env (s : State) (k : Consumer) : (s.setCons k).env = s.env := rfl
@[simp] theorem setCons_reply (s : State) (k : Consumer) : (s.setCons k).reply = s.reply := rfl
@[simp] theorem setCons_trace (s : State) (k : Consumer) : (s.setCons k).trace = s.trace := rfl

/-! ### `setSa` -/

@[simp] theorem setSa_params (s : State) (a : SignalAccess) : (s.setSa a).params = s.params := rfl
@[simp] theorem setSa_rx (s : State) (a : SignalAccess) : (s.setSa a).rx = s.rx := rfl
@[simp] theorem setSa_fifo (s : State) (a : SignalAccess) : (s.setSa a).fifo = s.fifo := rfl
@[simp] theorem setSa_cap (s : State) (a : SignalAccess) : (s.setSa a).cap = s.cap := rfl
@[simp] theorem setSa_cons (s : State) (a : SignalAccess) : (s.setSa a).cons = s.cons := rfl
@[simp] theorem setSa_sa (s : State) (a : SignalAccess) : (s.setSa a).sa = a := rfl
@[simp] theorem setSa_up (s : State) (a : SignalAccess) : (s.setSa a).up = s.up := rfl
@[simp] theorem setSa_env (s : State) (a : SignalAccess) : (s.setSa a).env = s.env := rfl
@[simp] theorem setSa_reply (s : State) (a : SignalAccess) : (s.setSa a).reply = s.reply := rfl
@[simp] theorem setSa_trace (s : State) (a : SignalAccess) : (s.setSa a).trace = s.trace := rfl

/-! ### `setUp` -/

@[simp] theorem setUp_params (s : State) (u : EnginesUp) : (s.setUp u).params = s.params := rfl
@[simp] theorem setUp_rx (s : State) (u : EnginesUp) : (s.setUp u).rx = s.rx := rfl
@[simp] theorem setUp_fifo (s : State) (u : EnginesUp) : (s.setUp u).fifo = s.fifo := rfl
@[simp] theorem setUp_cap (s : State) (u : EnginesUp) : (s.setUp u).cap = s.cap := rfl
@[simp] theorem setUp_cons (s : State) (u : EnginesUp) : (s.setUp u).cons = s.cons := rfl
@[simp] theorem setUp_sa (s : State) (u : EnginesUp) : (s.setUp u).sa = s.sa := rfl
@[simp] theorem setUp_up (s : State) (u : EnginesUp) : (s.setUp u).up = u := rfl
@[simp] theorem setUp_env (s : State) (u : EnginesUp) : (s.setUp u).env = s.env := rfl
@[simp] theorem setUp_reply (s : State) (u : EnginesUp) : (s.setUp u).reply = s.reply := rfl
@[simp] theorem setUp_trace (s : State) (u : EnginesUp) : (s.setUp u).trace = s.trace := rfl

/-! ### `setEnv` -/

@[simp] theorem setEnv_params (s : State) (e : Environment) : (s.setEnv e).params = s.params := rfl
@[simp] theorem setEnv_rx (s : State) (e : Environment) : (s.setEnv e).rx = s.rx := rfl
@[simp] theorem setEnv_fifo (s : State) (e : Environment) : (s.setEnv e).fifo = s.fifo := rfl
@[simp] theorem setEnv_cap (s : State) (e : Environment) : (s.setEnv e).cap = s.cap := rfl
@[simp] theorem setEnv_cons (s : State) (e : Environment) : (s.setEnv e).cons = s.cons := rfl
@[simp] theorem setEnv_sa (s : State) (e : Environment) : (s.setEnv e).sa = s.sa := rfl
@[simp] theorem setEnv_up (s : State) (e : Environment) : (s.setEnv e).up = s.up := rfl
@[simp] theorem setEnv_env (s : State) (e : Environment) : (s.setEnv e).env = e := rfl
@[simp] theorem setEnv_reply (s : State) (e : Environment) : (s.setEnv e).reply = s.reply := rfl
@[simp] theorem setEnv_trace (s : State) (e : Environment) : (s.setEnv e).trace = s.trace := rfl

/-! ### `setReply` -/

@[simp] theorem setReply_params (s : State) (r : Reply) : (s.setReply r).params = s.params := rfl
@[simp] theorem setReply_rx (s : State) (r : Reply) : (s.setReply r).rx = s.rx := rfl
@[simp] theorem setReply_fifo (s : State) (r : Reply) : (s.setReply r).fifo = s.fifo := rfl
@[simp] theorem setReply_cap (s : State) (r : Reply) : (s.setReply r).cap = s.cap := rfl
@[simp] theorem setReply_cons (s : State) (r : Reply) : (s.setReply r).cons = s.cons := rfl
@[simp] theorem setReply_sa (s : State) (r : Reply) : (s.setReply r).sa = s.sa := rfl
@[simp] theorem setReply_up (s : State) (r : Reply) : (s.setReply r).up = s.up := rfl
@[simp] theorem setReply_env (s : State) (r : Reply) : (s.setReply r).env = s.env := rfl
@[simp] theorem setReply_reply (s : State) (r : Reply) : (s.setReply r).reply = r := rfl
@[simp] theorem setReply_trace (s : State) (r : Reply) : (s.setReply r).trace = s.trace := rfl

/-! ### `emit` -/

@[simp] theorem emit_params (s : State) (o : Output) : (s.emit o).params = s.params := rfl
@[simp] theorem emit_rx (s : State) (o : Output) : (s.emit o).rx = s.rx := rfl
@[simp] theorem emit_fifo (s : State) (o : Output) : (s.emit o).fifo = s.fifo := rfl
@[simp] theorem emit_cap (s : State) (o : Output) : (s.emit o).cap = s.cap := rfl
@[simp] theorem emit_cons (s : State) (o : Output) : (s.emit o).cons = s.cons := rfl
@[simp] theorem emit_sa (s : State) (o : Output) : (s.emit o).sa = s.sa := rfl
@[simp] theorem emit_up (s : State) (o : Output) : (s.emit o).up = s.up := rfl
@[simp] theorem emit_env (s : State) (o : Output) : (s.emit o).env = s.env := rfl
@[simp] theorem emit_reply (s : State) (o : Output) : (s.emit o).reply = s.reply := rfl
@[simp] theorem emit_trace (s : State) (o : Output) : (s.emit o).trace = s.trace ++ [o] := rfl

/-! ### `setCap` -/

@[simp] theorem setCap_params (s : State) (c : ChannelIndex) (ch : CapChannel) : (s.setCap c ch).params = s.params := rfl
@[simp] theorem setCap_rx (s : State) (c : ChannelIndex) (ch : CapChannel) : (s.setCap c ch).rx = s.rx := rfl
@[simp] theorem setCap_fifo (s : State) (c : ChannelIndex) (ch : CapChannel) : (s.setCap c ch).fifo = s.fifo := rfl
@[simp] theorem setCap_cap (s : State) (c : ChannelIndex) (ch : CapChannel) : (s.setCap c ch).cap = s.cap.set c ch := rfl
@[simp] theorem setCap_cons (s : State) (c : ChannelIndex) (ch : CapChannel) : (s.setCap c ch).cons = s.cons := rfl
@[simp] theorem setCap_sa (s : State) (c : ChannelIndex) (ch : CapChannel) : (s.setCap c ch).sa = s.sa := rfl
@[simp] theorem setCap_up (s : State) (c : ChannelIndex) (ch : CapChannel) : (s.setCap c ch).up = s.up := rfl
@[simp] theorem setCap_env (s : State) (c : ChannelIndex) (ch : CapChannel) : (s.setCap c ch).env = s.env := rfl
@[simp] theorem setCap_reply (s : State) (c : ChannelIndex) (ch : CapChannel) : (s.setCap c ch).reply = s.reply := rfl
@[simp] theorem setCap_trace (s : State) (c : ChannelIndex) (ch : CapChannel) : (s.setCap c ch).trace = s.trace := rfl

/-- The channel that was written. -/
@[simp] theorem setCap_cap_self (s : State) (c : ChannelIndex) (ch : CapChannel) : (s.setCap c ch).cap[c] = ch := by
  simp [State.setCap]

/-- Every other channel. -/
theorem setCap_cap_ne (s : State) {c d : ChannelIndex} (ch : CapChannel) (h : c ≠ d) : (s.setCap c ch).cap[d] = s.cap[d] := by
  have : c.val ≠ d.val := fun e => h (Fin.ext e)
  simp [State.setCap, this]

/-! ### `setInbox` -/

@[simp] theorem setInbox_params (s : State) (l : List InboxItem) : (s.setInbox l).params = s.params := rfl
@[simp] theorem setInbox_rx (s : State) (l : List InboxItem) : (s.setInbox l).rx = s.rx := rfl
@[simp] theorem setInbox_fifo (s : State) (l : List InboxItem) : (s.setInbox l).fifo = s.fifo := rfl
@[simp] theorem setInbox_cap (s : State) (l : List InboxItem) : (s.setInbox l).cap = s.cap := rfl
@[simp] theorem setInbox_cons (s : State) (l : List InboxItem) : (s.setInbox l).cons = s.cons := rfl
@[simp] theorem setInbox_sa (s : State) (l : List InboxItem) : (s.setInbox l).sa = s.sa := rfl
@[simp] theorem setInbox_up (s : State) (l : List InboxItem) : (s.setInbox l).up = s.up := rfl
@[simp] theorem setInbox_env (s : State) (l : List InboxItem) : (s.setInbox l).env = { s.env with inbox := l } := rfl
@[simp] theorem setInbox_reply (s : State) (l : List InboxItem) : (s.setInbox l).reply = s.reply := rfl
@[simp] theorem setInbox_trace (s : State) (l : List InboxItem) : (s.setInbox l).trace = s.trace := rfl

end Sys2Proof.Machine
end

