-- ==== Sys2Proof/Laws/Ops.lean ====
section
/-! SUPPORT. One law per shared operation: everything it can do. -/

namespace Sys2Proof.Machine

/-! ### Outcomes -/

@[simp] theorem andThen_next (s : State) (k : State → Result) : andThen (.next s) k = k s := rfl
@[simp] theorem andThen_fault (e : Fault) (k : State → Result) : andThen (.fault e) k = .fault e := rfl
@[simp] theorem andThen_refused (e : Refusal) (k : State → Result) : andThen (.refused e) k = .refused e := rfl

/-- A sequence answers a next state exactly when both its parts do. -/
theorem andThen_eq_next {r : Result} {k : State → Result} {t : State} :
    andThen r k = .next t ↔ ∃ s, r = .next s ∧ k s = .next t := by
  cases r <;> simp

/-! ### Storage -/

/-- The cell that was written. -/
theorem store_buf_self (r : Receiver) {i : Nat} (b : Byte) (h : i < 8) : (r.store i b).buf[i] = b := by
  simp [Receiver.store, h]

/-- Every other cell. -/
theorem store_buf_ne (r : Receiver) {i j : Nat} (b : Byte) (hj : j < 8) (h : i ≠ j) :
    (r.store i b).buf[j] = r.buf[j] := by
  unfold Receiver.store
  split <;> simp [h]

@[simp] theorem store_state (r : Receiver) (i : Nat) (b : Byte) : (r.store i b).state = r.state := by
  unfold Receiver.store; split <;> rfl
@[simp] theorem store_index (r : Receiver) (i : Nat) (b : Byte) : (r.store i b).index = r.index := by
  unfold Receiver.store; split <;> rfl
@[simp] theorem store_armed (r : Receiver) (i : Nat) (b : Byte) : (r.store i b).armed = r.armed := by
  unfold Receiver.store; split <;> rfl

/-- SlotRead after SlotWrite of the same slot. -/
@[simp] theorem slotRead_slotWrite_self (q : RingBuffer) (i : SlotIndex) (f : Frame) :
    (q.slotWrite i f).slotRead i = f := by
  simp [RingBuffer.slotRead, RingBuffer.slotWrite]

/-- SlotRead after SlotWrite of another slot. -/
theorem slotRead_slotWrite_ne (q : RingBuffer) {i j : SlotIndex} (f : Frame) (h : i ≠ j) :
    (q.slotWrite i f).slotRead j = q.slotRead j := by
  have : i.val ≠ j.val := fun e => h (Fin.ext e)
  simp [RingBuffer.slotRead, RingBuffer.slotWrite, this]

/-- What the producer's three writes leave (R160). -/
theorem push_eq (q : RingBuffer) (f : Frame) :
    q.push f = ⟨q.slot.set q.tail f, q.head, advance q.tail, q.count + 1⟩ := rfl

@[simp] theorem push_head (q : RingBuffer) (f : Frame) : (q.push f).head = q.head := rfl
@[simp] theorem push_tail (q : RingBuffer) (f : Frame) : (q.push f).tail = advance q.tail := rfl
@[simp] theorem push_count (q : RingBuffer) (f : Frame) : (q.push f).count = q.count + 1 := rfl
@[simp] theorem advance_val (i : SlotIndex) : (advance i).val = (i.val + 1) % 16 := rfl

/-- ENQUEUE either stores the frame and says true, or finds the buffer full, says false and changes nothing (R160, R161). -/
theorem tryEnqueue_cases (f : Frame) (s : State) :
    (s.fifo.count ≠ 16 ∧ tryEnqueue f s = (true, s.setFifo (s.fifo.push f))) ∨
    (s.fifo.count = 16 ∧ tryEnqueue f s = (false, s)) := by
  unfold tryEnqueue RingBuffer.full capacity
  split <;> simp_all

/-! ### Outputs and draws -/

/-- `Respond` in one equation (R258). -/
theorem respond_eq (r : Frame) (s : State) :
    respond r s = { s with
      env   := s.env.afterTx
      trace := s.trace ++ sentOutputs s.params r (nextTxResult s) } := by
  unfold respond reportTx sentOutputs
  cases nextTxResult s <;> simp [raise, State.emit, State.setEnv]

@[simp] theorem respond_params (r : Frame) (s : State) : (respond r s).params = s.params := by simp [respond_eq]
@[simp] theorem respond_rx (r : Frame) (s : State) : (respond r s).rx = s.rx := by simp [respond_eq]
@[simp] theorem respond_fifo (r : Frame) (s : State) : (respond r s).fifo = s.fifo := by simp [respond_eq]
@[simp] theorem respond_cap (r : Frame) (s : State) : (respond r s).cap = s.cap := by simp [respond_eq]
@[simp] theorem respond_cons (r : Frame) (s : State) : (respond r s).cons = s.cons := by simp [respond_eq]
@[simp] theorem respond_sa (r : Frame) (s : State) : (respond r s).sa = s.sa := by simp [respond_eq]
@[simp] theorem respond_up (r : Frame) (s : State) : (respond r s).up = s.up := by simp [respond_eq]
@[simp] theorem respond_reply (r : Frame) (s : State) : (respond r s).reply = s.reply := by simp [respond_eq]
@[simp] theorem respond_env (r : Frame) (s : State) : (respond r s).env = s.env.afterTx := by simp [respond_eq]

/-- One use of the sender puts out exactly one response. -/
theorem sentOutputs_count (p : Params) (r : Frame) (t : TxResult) : (sentOutputs p r t).countP Output.isTx = 1 := by
  cases t <;> rfl

@[simp] theorem respond_sentCount (r : Frame) (s : State) : (respond r s).sentCount = s.sentCount + 1 := by
  simp [State.sentCount, respond_eq, sentOutputs_count]

/-- `Respond` is one answer in the sense of `Answers`. -/
theorem respond_answers (r : Frame) (s : State) : Answers r s (respond r s) := by
  refine ⟨nextTxResult s, fun u h => ?_, respond_eq r s⟩
  unfold nextTxResult
  cases hl : s.env.txResults <;> simp_all

/-- A report is one output and nothing else. -/
theorem raise_eq (k : ErrorKind) (info : ReportInfo) (s : State) :
    raise k info s = { s with trace := s.trace ++ [.errReport k info] } := rfl

@[simp] theorem raise_sentCount (k : ErrorKind) (info : ReportInfo) (s : State) :
    (raise k info s).sentCount = s.sentCount := by
  simp [State.sentCount, raise, State.emit, Output.isTx]

/-- `Err(k)` is one report and one mirroring ERROR response. -/
theorem failRequest_fails (k : ErrorKind) (f : Frame) (s : State) : Fails k f s (failRequest k f s) :=
  respond_answers _ _

/-- `Err(k)` touches only the environment's draws and the outputs. -/
theorem failRequest_eq (k : ErrorKind) (f : Frame) (s : State) :
    failRequest k f s = { s with
      env   := s.env.afterTx
      trace := s.trace ++ [.errReport k (.frame f)] ++
        sentOutputs s.params (errorResponse s.params f.channel f.signal f.value) (nextTxResult s) } := by
  unfold failRequest
  rw [respond_eq]
  rfl

@[simp] theorem failRequest_sentCount (k : ErrorKind) (f : Frame) (s : State) :
    (failRequest k f s).sentCount = s.sentCount + 1 := by
  simp [failRequest]

/-- The receiver's error response touches only the environment's draws and the outputs (R145). -/
theorem failReception_eq (k : ErrorKind) (s : State) :
    failReception k s = { s with
      env   := s.env.afterTx
      trace := s.trace ++ [.errReport k (.raw s.rx.buf)] ++
        sentOutputs s.params
          (errorResponse s.params (isrErrorFields s.params k s.rx.buf).channel
            (isrErrorFields s.params k s.rx.buf).signal (isrErrorFields s.params k s.rx.buf).value)
          (nextTxResult s) } := by
  unfold failReception
  simp only [respond_eq]
  rfl

/-! ### Signal Access -/

theorem pwmAnswers_get (v : Vector (Fin 1024) 3) (c : ChannelIndex) : (pwmAnswers v)[c] = BitVec.ofNat 16 v[c].val := by
  match c with
  | 0 => rfl
  | 1 => rfl
  | 2 => rfl

/-- A getter after a setter that stored something. -/
theorem get_ofPwm (current temperature : Vector (Fin 1024) 3) (q : Quantity) (c : ChannelIndex) :
    (SignalAccess.ofPwm current temperature).get q c =
      BitVec.ofNat 16 (match q with | .current => current[c].val | .temperature => temperature[c].val) := by
  cases q <;> exact pwmAnswers_get _ c

/-- What a setter stores are PWM values (R259). -/
theorem ofPwm_inv (current temperature : Vector (Fin 1024) 3) : (SignalAccess.ofPwm current temperature).inv := by
  intro c
  have hi := current[c].isLt
  have ht := temperature[c].isLt
  simp only [get_ofPwm, BitVec.toNat_ofNat]
  omega

/-- A setter says false and stores nothing, or says true and stores PWM values. -/
theorem callSetter_cases (q : Quantity) (c : ChannelIndex) (v : U16) (s : State) :
    (nextSetterAnswer q c v s = .refused ∧
      callSetter q c v s = (false, { s with
        env   := s.env.afterSetter
        trace := s.trace ++ [.saSet q c v false] })) ∨
    (∃ current temperature, nextSetterAnswer q c v s = .stored current temperature ∧
      callSetter q c v s = (true, { s with
        env   := s.env.afterSetter
        sa    := .ofPwm current temperature
        trace := s.trace ++ [.saSet q c v true] })) := by
  unfold callSetter
  cases nextSetterAnswer q c v s with
  | refused                    => exact .inl ⟨rfl, rfl⟩
  | stored current temperature => exact .inr ⟨current, temperature, rfl, rfl⟩

/-! ### The capture channel -/

/-- SAMPLE_TAKE writes the flag of its channel and nothing else (R209). -/
theorem sampleTake_eq (c : ChannelIndex) (s : State) :
    sampleTake c s =
      ((s.cap[c].sampleReady, s.cap[c].dutyValue), { s with cap := s.cap.set c { s.cap[c] with sampleReady := false } }) :=
  rfl

/-- The result of WRAPSUB lies in 0..COUNTER_MAX when its operands do (R203). -/
theorem wrapsub_le (p : Params) {a b : Nat} (ha : a ≤ p.counterMax) (hb : b ≤ p.counterMax) :
    wrapsub p a b ≤ p.counterMax := by
  unfold wrapsub; split <;> omega

/-- Every EDGE keeps a channel's invariant (R31 to R38). -/
theorem edge_inv (p : Params) {ts : Nat} (hts : ts ≤ p.counterMax) {ch : CapChannel} (h : ch.inv p) :
    (ch.edge p ts).inv p := by
  obtain ⟨-, h2, h3, h4, h5, h6⟩ := h
  have hw : wrapsub p ts ch.lastRising ≤ p.counterMax := wrapsub_le p hts h2
  unfold CapChannel.edge
  cases he : ch.edgeState with
  | awaitingRising =>
    unfold CapChannel.rise CapChannel.awaitEdge CapChannel.inv
    cases hr : ch.haveRising <;> simp_all
  | awaitingFalling =>
    unfold CapChannel.fall CapChannel.awaitEdge CapChannel.inv
    by_cases hp : ch.period > 0 <;> simp_all

end Sys2Proof.Machine
end

