-- ==== Sys2Proof/Laws/Exec.lean ====
section
/-! SUPPORT. What each meaning can do, said once: the frame receiver, the ring buffer, the capture engine, the requests. -/

namespace Sys2Proof.Machine

/-! ### Capture -/

/-- The rising form in one equation (R201, R207). -/
theorem edge_rising (p : Params) (ts : Nat) {ch : CapChannel} (h : ch.edgeState = .awaitingRising) :
    ch.edge p ts = { ch with
      period     := if ch.haveRising then wrapsub p ts ch.lastRising else ch.period
      lastRising := ts
      haveRising := true
      edgeState  := .awaitingFalling
      polarity   := .falling } := by
  unfold CapChannel.edge CapChannel.rise CapChannel.awaitEdge
  cases hr : ch.haveRising <;> simp_all [polarityOf]

/-- The falling form in one equation (R202, R205, R206, R207). -/
theorem edge_falling (p : Params) (ts : Nat) {ch : CapChannel} (h : ch.edgeState = .awaitingFalling) :
    ch.edge p ts = { ch with
      pulseWidth  := wrapsub p ts ch.lastRising
      dutyValue   := if ch.period > 0 then dutyOf p (wrapsub p ts ch.lastRising) ch.period else ch.dutyValue
      sampleReady := if ch.period > 0 then true else ch.sampleReady
      edgeState   := .awaitingRising
      polarity    := .rising } := by
  unfold CapChannel.edge CapChannel.fall CapChannel.awaitEdge
  by_cases hr : ch.period > 0 <;> simp [h, polarityOf, hr]

/-- EDGE completes exactly on a timestamp, after INIT_CAPTURE, and writes its channel only (R200, R208). -/
theorem execEdge_next {c : ChannelIndex} {ts : Nat} {s t : State} :
    execEdge c ts s = .next t ↔
      s.up.cap = true ∧ ts ≤ s.params.counterMax ∧ t = s.setCap c (s.cap[c].edge s.params ts) := by
  unfold execEdge isTimestamp
  split_ifs <;> simp_all
  exact eq_comm

/-- SAMPLE_TAKE completes exactly after INIT_CAPTURE (R209). -/
theorem execSampleTake_next {c : ChannelIndex} {s t : State} :
    execSampleTake c s = .next t ↔
      s.up.cap = true ∧
      t = (s.setCap c { s.cap[c] with sampleReady := false }).setReply
        (.sample s.cap[c].sampleReady s.cap[c].dutyValue) := by
  unfold execSampleTake
  split_ifs <;> simp_all [sampleTake]
  exact eq_comm

/-- INIT_CAPTURE completes exactly when the timer reports a maximum (R210). -/
theorem execInitCapture_next {s t : State} :
    execInitCapture s = .next t ↔
      s.env.counterMax ≠ 0 ∧
      t = { s with cap    := .replicate 3 CapChannel.reset
                   params := { s.params with counterMax := s.env.counterMax }
                   up     := { s.up with cap := true } } := by
  unfold execInitCapture
  split_ifs with h
  · simp [h]
  · simp only [Host.Outcome.next.injEq, ne_eq, h, not_false_eq_true, true_and]
    exact eq_comm

/-! ### Ring buffer -/

/-- ENQUEUE as an operation: it stores and says true, or finds the buffer full and says false (R160, R161). -/
theorem execEnqueue_cases {f : Frame} {s t : State} (h : execEnqueue f s = .next t) :
    s.up.fifo = true ∧
    ((s.fifo.count ≠ 16 ∧ t = (s.setFifo (s.fifo.push f)).setReply (.bool true)) ∨
      (s.fifo.count = 16 ∧ t = s.setReply (.bool false))) := by
  unfold execEnqueue at h
  split_ifs at h with hu
  obtain ⟨hc, he⟩ | ⟨hc, he⟩ := tryEnqueue_cases f s <;> simp_all

/-- DEQUEUE does one of five things (R163, R165). -/
theorem execDequeue_cases {s t : State} (h : execDequeue s = .next t) :
    s.up.fifo = true ∧
    (((s.cons.phase = .idle ∨ s.cons.phase = .deq1) ∧ s.fifo.count = 0 ∧
        t = (s.setCons { s.cons with phase := .idle }).setReply (.dequeued none)) ∨
      ((s.cons.phase = .idle ∨ s.cons.phase = .deq1) ∧ s.fifo.count ≠ 0 ∧
        t = s.setCons { s.cons with phase := .deq2 }) ∨
      (s.cons.phase = .deq2 ∧ t = s.setCons ⟨.deq3, some (s.fifo.slotRead s.fifo.head)⟩) ∨
      (s.cons.phase = .deq3 ∧
        t = (s.setFifo { s.fifo with head := advance s.fifo.head }).setCons { s.cons with phase := .deq4 }) ∨
      (s.cons.phase = .deq4 ∧
        t = ((s.setFifo { s.fifo with count := s.fifo.count - 1 }).setCons { s.cons with phase := .service }).setReply
          (.dequeued s.cons.frame))) := by
  unfold execDequeue at h
  split_ifs at h with hu
  refine ⟨hu, ?_⟩
  cases hp : s.cons.phase <;> simp only [hp] at h <;>
    simp_all [dequeueTest, dequeueRead, dequeueAdvance, dequeueRelease, RingBuffer.empty]
  all_goals
    by_cases hc : s.fifo.count = 0 <;> simp_all

/-- INIT_FIFO completes exactly outside a DEQUEUE (R173, U8). -/
theorem execInitFifo_next {s t : State} :
    execInitFifo s = .next t ↔
      s.cons.phase.insideDequeue = false ∧ t = (s.setFifo RingBuffer.reset).setUp { s.up with fifo := true } := by
  unfold execInitFifo RingBuffer.reset
  split_ifs <;> simp_all
  exact eq_comm

/-! ### Receiver -/

/-- The Complete processing does one of three things (R135, R136, R137). -/
theorem completeFrame_cases {s t : State} (h : completeFrame s = .next t) :
    (markersValid s.params (decodeFrame s.params s.rx.buf) = true ∧ s.up.fifo = true ∧ s.fifo.count ≠ 16 ∧
      t = s.setFifo (s.fifo.push (decodeFrame s.params s.rx.buf))) ∨
    (markersValid s.params (decodeFrame s.params s.rx.buf) = true ∧ s.up.fifo = true ∧ s.fifo.count = 16 ∧
      t = failReception .bufferFull s) ∨
    (markersValid s.params (decodeFrame s.params s.rx.buf) = false ∧ t = failReception .malformedFrame s) := by
  unfold completeFrame at h
  simp only at h
  split_ifs at h with hm hu ht
  · obtain ⟨hc, he⟩ | ⟨hc, he⟩ := tryEnqueue_cases (decodeFrame s.params s.rx.buf) s <;> simp_all
  · obtain ⟨hc, he⟩ | ⟨hc, he⟩ := tryEnqueue_cases (decodeFrame s.params s.rx.buf) s <;> simp_all
  · simp_all

/-- RX_BYTE does one of four things, and then arms reception again (R130 to R139). -/
theorem execRxByte_cases {b : Byte} {s t : State} (h : execRxByte b s = .next t) :
    s.rx.armed = true ∧ ∃ u, t = rearm u ∧
    ((s.rx.state = .awaitingStart ∧ b ≠ s.params.startMarker ∧ u = s.setRx s.rx.disarm) ∨
      (s.rx.state = .awaitingStart ∧ b = s.params.startMarker ∧
        u = s.setRx ⟨.accumulating, 1, s.rx.buf.set 0 b, false⟩) ∨
      (∃ hi : s.rx.index ≤ 6, s.rx.state = .accumulating ∧
        u = s.setRx ⟨.accumulating, s.rx.index + 1, s.rx.buf.set s.rx.index b (by omega), false⟩) ∨
      (s.rx.state = .accumulating ∧ s.rx.index = 7 ∧
        ∃ v, completeFrame (s.setRx ⟨.complete, 8, s.rx.buf.set 7 b, false⟩) = .next v ∧ u = v.setRx v.rx.awaitStart)) := by
  unfold execRxByte at h
  split_ifs at h with ha
  refine ⟨ha, ?_⟩
  obtain ⟨u, hu, ht⟩ := andThen_eq_next.1 h
  simp only [Host.Outcome.next.injEq] at ht
  refine ⟨u, ht.symm, ?_⟩
  unfold receiveByte at hu
  cases hs : s.rx.state with
  | complete => simp [Receiver.disarm, hs] at hu
  | awaitingStart =>
    simp only [setRx_rx, Receiver.disarm, hs, Host.Outcome.next.injEq, awaitByte, setRx_params] at hu
    by_cases hb : b = s.params.startMarker
    · refine .inr (.inl ⟨rfl, hb, ?_⟩)
      simp [hb] at hu
      rw [← hu, hb]
      rfl
    · refine .inl ⟨rfl, hb, ?_⟩
      simp [hb] at hu
      rw [← hu, Receiver.disarm, hs]
  | accumulating =>
    simp only [setRx_rx, Receiver.disarm, hs, accumulateByte] at hu
    by_cases hi : s.rx.index ≤ 6
    · refine .inr (.inr (.inl ⟨hi, rfl, ?_⟩))
      simp [hi] at hu
      have h8 : s.rx.index < 8 := by omega
      rw [← hu]
      simp [Receiver.store, h8]
      rfl
    · simp only [hi, if_false] at hu
      by_cases h7 : s.rx.index = 7
      · refine .inr (.inr (.inr ⟨rfl, h7, ?_⟩))
        simp only [h7, if_true] at hu
        obtain ⟨v, hv, hu⟩ := andThen_eq_next.1 hu
        simp only [Host.Outcome.next.injEq] at hu
        exact ⟨v, hv, hu.symm⟩
      · simp [h7] at hu

/-! ### Requests -/

/-- R242: a request of a wrong checksum fails, any other is routed. -/
theorem checked_next {f : Frame} {route : State → Result} {s t : State} :
    checked f route s = .next t ↔
      (validate f = false ∧ t = failRequest .checksumMismatch f s) ∨ (validate f = true ∧ route s = .next t) := by
  unfold checked
  cases validate f <;> simp
  exact eq_comm

/-- R243: a GET or SET of no channel fails, any other is routed. -/
theorem onChannel_next {f : Frame} {route : ChannelIndex → State → Result} {s t : State} :
    onChannel f route s = .next t ↔
      (channelIndex s.params f.channel = none ∧ t = failRequest .invalidChannel f s) ∨
      (∃ c, channelIndex s.params f.channel = some c ∧ route c s = .next t) := by
  unfold onChannel
  cases hc : channelIndex s.params f.channel <;> simp
  exact eq_comm

/-- Clearing a flag that is clear. -/
theorem setCap_clear (s : State) (c : ChannelIndex) (h : s.cap[c].sampleReady = false) :
    s.setCap c { s.cap[c] with sampleReady := false } = s := by
  have hch : { s.cap[c] with sampleReady := false } = s.cap[c] := by rw [← h]
  rw [hch]
  unfold State.setCap
  have hv : s.cap.set c s.cap[c] = s.cap := by
    ext j hj
    simp only [Vector.getElem_set]
    split <;> simp_all
  rw [hv]

/-- R245: the sample is taken and answered, or there is none. -/
theorem routeSample_cases {f : Frame} {c : ChannelIndex} {s t : State} (h : routeSample f c s = .next t) :
    s.up.cap = true ∧
    ((s.cap[c].sampleReady = true ∧
        t = respond (getOkResponse s.params f.channel f.signal s.cap[c].dutyValue)
          (s.setCap c { s.cap[c] with sampleReady := false })) ∨
      (s.cap[c].sampleReady = false ∧ t = failRequest .unreadableSample f s)) := by
  unfold routeSample at h
  dsimp only at h
  split_ifs at h with hu hr
  · exact ⟨hu, .inl ⟨hr, (Host.Outcome.next.inj h).symm⟩⟩
  · have hr' : s.cap[c].sampleReady = false := by simpa [sampleTake] using hr
    refine ⟨hu, .inr ⟨hr', ?_⟩⟩
    rw [← Host.Outcome.next.inj h]
    exact congrArg _ (setCap_clear s c hr')

/-- R246, R247: the getter's value is answered, its sentinel fails. -/
theorem routeGetter_cases {q : Quantity} {f : Frame} {c : ChannelIndex} {s t : State} (h : routeGetter q f c s = .next t) :
    (s.sa.get q c = sentinel ∧ t = failRequest .invalidChannel f (s.emit (.saGet q c (s.sa.get q c)))) ∨
    (s.sa.get q c ≠ sentinel ∧
      t = respond (getOkResponse s.params f.channel f.signal (s.sa.get q c)) (s.emit (.saGet q c (s.sa.get q c)))) := by
  unfold routeGetter at h
  dsimp only at h
  split_ifs at h with hv
  · exact .inl ⟨hv, (Host.Outcome.next.inj h).symm⟩
  · exact .inr ⟨hv, (Host.Outcome.next.inj h).symm⟩

/-- R248, R249: as the setter answers. -/
theorem routeSetter_cases {q : Quantity} {f : Frame} {c : ChannelIndex} {s t : State} (h : routeSetter q f c s = .next t) :
    (nextSetterAnswer q c f.value s = .refused ∧
      t = failRequest .invalidChannel f ((s.setEnv s.env.afterSetter).emit (.saSet q c f.value false))) ∨
    (∃ current temperature, nextSetterAnswer q c f.value s = .stored current temperature ∧
      t = respond (setOkResponse s.params f.channel f.signal f.value)
        (((s.setEnv s.env.afterSetter).setSa (.ofPwm current temperature)).emit (.saSet q c f.value true))) := by
  unfold routeSetter at h
  obtain ⟨ha, he⟩ | ⟨a, b, ha, he⟩ := callSetter_cases q c f.value s
  · simp only [he] at h
    exact .inl ⟨ha, (Host.Outcome.next.inj h).symm⟩
  · simp only [he] at h
    exact .inr ⟨a, b, ha, (Host.Outcome.next.inj h).symm⟩

/-- What a request has done when it answers: nothing, a sample taken, or one call of Signal Access. -/
def Prepared (i : Instr) (f : Frame) (s u : State) : Prop :=
  u = s ∨
  (∃ c, i = .getPwmInput f ∧ channelIndex s.params f.channel = some c ∧ s.cap[c].sampleReady = true ∧
    u = s.setCap c { s.cap[c] with sampleReady := false }) ∨
  (∃ q c, u = s.emit (.saGet q c (s.sa.get q c))) ∨
  (∃ q c current temperature,
    u = ((s.setEnv s.env.afterSetter).setSa (.ofPwm current temperature)).emit (.saSet q c f.value true))

/-- What a request has done when it fails: nothing, a getter's call, or a setter's call that stored nothing. -/
def Harmless (f : Frame) (s u : State) : Prop :=
  u = s ∨ (∃ q c, u = s.emit (.saGet q c (s.sa.get q c))) ∨
  (∃ q c, u = (s.setEnv s.env.afterSetter).emit (.saSet q c f.value false))

/-- Every request ends in exactly one answer or one failure (R253, R257, R260). -/
theorem request_cases {i : Instr} {f : Frame} {s t : State} (hf : requestFrame i = some f) (h : exec i s = .next t) :
    (∃ r u, t = respond r u ∧ Prepared i f s u) ∨ (∃ k u, t = failRequest k f u ∧ Harmless f s u) := by
  have fail : ∀ k, t = failRequest k f s →
      (∃ r u, t = respond r u ∧ Prepared i f s u) ∨ (∃ k u, t = failRequest k f u ∧ Harmless f s u) :=
    fun k e => .inr ⟨k, s, e, .inl rfl⟩
  have getter : ∀ q c, routeGetter q f c s = .next t →
      (∃ r u, t = respond r u ∧ Prepared i f s u) ∨ (∃ k u, t = failRequest k f u ∧ Harmless f s u) := by
    intro q c e
    obtain ⟨-, e⟩ | ⟨-, e⟩ := routeGetter_cases e
    · exact .inr ⟨_, _, e, .inr (.inl ⟨q, c, rfl⟩)⟩
    · exact .inl ⟨_, _, e, .inr (.inr (.inl ⟨q, c, rfl⟩))⟩
  have setter : ∀ q c, routeSetter q f c s = .next t →
      (∃ r u, t = respond r u ∧ Prepared i f s u) ∨ (∃ k u, t = failRequest k f u ∧ Harmless f s u) := by
    intro q c e
    obtain ⟨-, e⟩ | ⟨a, b, -, e⟩ := routeSetter_cases e
    · exact .inr ⟨_, _, e, .inr (.inr ⟨q, c, rfl⟩)⟩
    · exact .inl ⟨_, _, e, .inr (.inr (.inr ⟨q, c, a, b, rfl⟩))⟩
  cases i <;> simp only [requestFrame, Option.some.injEq, reduceCtorEq] at hf <;> subst hf <;>
    simp only [exec, execPing, execGetPwmInput, execGetCurrent, execGetTemperature, execSetCurrent, execSetTemperature,
      execSetPwmInput, execGetOther, execSetOther, execUnknownCmd] at h <;>
    obtain ⟨-, h⟩ | ⟨-, h⟩ := checked_next.1 h
  case ping.inl | unknownCmd.inl => exact fail _ h
  case ping.inr => exact .inl ⟨_, s, (Host.Outcome.next.inj h).symm, .inl rfl⟩
  case unknownCmd.inr => exact fail _ (Host.Outcome.next.inj h).symm
  all_goals first
    | exact fail _ h
    | obtain ⟨-, h⟩ | ⟨c, hc, h⟩ := onChannel_next.1 h
  case getPwmInput.inr.inr =>
    obtain ⟨-, ⟨hr, e⟩ | ⟨-, e⟩⟩ := routeSample_cases h
    · exact .inl ⟨_, _, e, .inr (.inl ⟨c, rfl, hc, hr, rfl⟩)⟩
    · exact fail _ e
  all_goals first
    | exact fail _ h
    | exact getter _ _ h
    | exact setter _ _ h
    | exact fail _ (Host.Outcome.next.inj h).symm

end Sys2Proof.Machine
end

