-- ==== Sys2Proof/Laws/PerInstr.lean ====
section
/-! SUPPORT. Statements about every instruction, one lemma per constructor: the width of an instruction's operand bytes is that of
its port (R102, R103, R105). -/

namespace Sys2Proof.Laws

/-- How many operand bytes an operation of a port has: eight for a frame, one byte for a channel, and so on (R103). -/
def portBytes (p : Params) : Port → Nat
  | .request | .rspGetOk | .rspSetOk | .rspPingOk | .rspError | .rspIsrError => 8
  | .enqueue | .validate | .markersValid | .frameValid | .encodeFrame | .decodeFrame => 8
  | .rxByte | .sampleTake => 1
  | .cksum => 5
  | .capEdge => 1 + stampBytes p
  | .wrapsub | .duty => stampBytes p + stampBytes p
  | .deq | .initRx | .initFifo | .initCapture => 0

/-- An instruction is encoded in as many bytes as its port takes, under every instantiation. -/
def EncodeWidth.Statement (i : Instr) : Prop := ∀ p : Params, (encode p i).bytes.length = portBytes p i.port

theorem EncodeWidth.ping (f : Frame) : EncodeWidth.Statement (.ping f) := fun _ => rfl
theorem EncodeWidth.getPwmInput (f : Frame) : EncodeWidth.Statement (.getPwmInput f) := fun _ => rfl
theorem EncodeWidth.getCurrent (f : Frame) : EncodeWidth.Statement (.getCurrent f) := fun _ => rfl
theorem EncodeWidth.getTemperature (f : Frame) : EncodeWidth.Statement (.getTemperature f) := fun _ => rfl
theorem EncodeWidth.setCurrent (f : Frame) : EncodeWidth.Statement (.setCurrent f) := fun _ => rfl
theorem EncodeWidth.setTemperature (f : Frame) : EncodeWidth.Statement (.setTemperature f) := fun _ => rfl
theorem EncodeWidth.setPwmInput (f : Frame) : EncodeWidth.Statement (.setPwmInput f) := fun _ => rfl
theorem EncodeWidth.getOther (f : Frame) : EncodeWidth.Statement (.getOther f) := fun _ => rfl
theorem EncodeWidth.setOther (f : Frame) : EncodeWidth.Statement (.setOther f) := fun _ => rfl
theorem EncodeWidth.unknownCmd (f : Frame) : EncodeWidth.Statement (.unknownCmd f) := fun _ => rfl
theorem EncodeWidth.rspGetOk (c g : Byte) (v : U16) : EncodeWidth.Statement (.rspGetOk c g v) := fun _ => rfl
theorem EncodeWidth.rspSetOk (c g : Byte) (v : U16) : EncodeWidth.Statement (.rspSetOk c g v) := fun _ => rfl
theorem EncodeWidth.rspPingOk : EncodeWidth.Statement .rspPingOk := fun _ => rfl
theorem EncodeWidth.rspError (c g : Byte) (v : U16) : EncodeWidth.Statement (.rspError c g v) := fun _ => rfl
theorem EncodeWidth.rspIsrError (c g : Byte) (v : U16) : EncodeWidth.Statement (.rspIsrError c g v) := fun _ => rfl
theorem EncodeWidth.rxByte (b : Byte) : EncodeWidth.Statement (.rxByte b) := fun _ => rfl
theorem EncodeWidth.enqueue (f : Frame) : EncodeWidth.Statement (.enqueue f) := fun _ => rfl
theorem EncodeWidth.dequeue : EncodeWidth.Statement .dequeue := fun _ => rfl
theorem EncodeWidth.cksum (c h g : Byte) (v : U16) : EncodeWidth.Statement (.cksum c h g v) := fun _ => rfl
theorem EncodeWidth.validate (f : Frame) : EncodeWidth.Statement (.validate f) := fun _ => rfl
theorem EncodeWidth.markersValid (f : Frame) : EncodeWidth.Statement (.markersValid f) := fun _ => rfl
theorem EncodeWidth.frameValid (f : Frame) : EncodeWidth.Statement (.frameValid f) := fun _ => rfl
theorem EncodeWidth.encodeFrame (f : Frame) : EncodeWidth.Statement (.encodeFrame f) := fun _ => rfl
theorem EncodeWidth.decodeFrame (b : Bytes8) : EncodeWidth.Statement (.decodeFrame b) := fun _ => b.size_toArray
theorem EncodeWidth.edge (c : ChannelIndex) (ts : Nat) : EncodeWidth.Statement (.edge c ts) := fun p => by simp [encode, encodeBytes, portBytes, Instr.port, Nat.add_comm]
theorem EncodeWidth.wrapsub (a b : Nat) : EncodeWidth.Statement (.wrapsub a b) := fun p => by simp [encode, encodeBytes, portBytes, Instr.port]
theorem EncodeWidth.duty (w q : Nat) : EncodeWidth.Statement (.duty w q) := fun p => by simp [encode, encodeBytes, portBytes, Instr.port]
theorem EncodeWidth.sampleTake (c : ChannelIndex) : EncodeWidth.Statement (.sampleTake c) := fun _ => rfl
theorem EncodeWidth.initRx : EncodeWidth.Statement .initRx := fun _ => rfl
theorem EncodeWidth.initFifo : EncodeWidth.Statement .initFifo := fun _ => rfl
theorem EncodeWidth.initCapture : EncodeWidth.Statement .initCapture := fun _ => rfl

end Sys2Proof.Laws
end

