-- ==== Sys2Proof/Laws/Step.lean ====
section
/-! SUPPORT. What one step can do (R69, entry 3): an event, a micro-step of DEQUEUE, or the service of a frame. -/

namespace Sys2Proof.Machine

@[simp] theorem setInbox_inbox (s : State) (l : List InboxItem) : (s.setInbox l).env.inbox = l := rfl

/-- Whose step comes next: `u` is the state the step runs in. -/
inductive Turn (s : State) : State → Prop where
  /-- The inbox is empty. -/
  | idle : s.env.inbox = [] → Turn s s
  /-- The inbox gives the consumer a turn. -/
  | given (rest : List InboxItem) : s.env.inbox = .turn :: rest → Turn s (s.setInbox rest)

/-- The consumer's step (R241). -/
theorem fetch_turn {s u : State} (h : Turn s u) : fetch s = fetchConsumer u := by
  cases h with
  | idle h       => simp [fetch, h]
  | given rest h => simp [fetch, h]

/-- A step that answers a next state: an event, a micro-step of DEQUEUE, or the service of a frame and its retirement. -/
theorem step_cases {s t : State} (h : step s = .next t) :
    s.params.valid = true ∧
    ((∃ w rest i, s.env.inbox = .event w :: rest ∧ decode s.params w = .ok i ∧ exec i (s.setInbox rest) = .next t) ∨
      (∃ u, Turn s u ∧ u.cons.phase ≠ .service ∧ exec .dequeue u = .next t) ∨
      (∃ u f v, Turn s u ∧ u.cons.phase = .service ∧ u.cons.frame = some f ∧
        exec (requestOf u.params f) u = .next v ∧ t = retire v)) := by
  unfold step at h
  split_ifs at h with hv
  refine ⟨hv, ?_⟩
  have consumer : ∀ u, Turn s u →
      ((∃ w rest i, s.env.inbox = .event w :: rest ∧ decode s.params w = .ok i ∧ exec i (s.setInbox rest) = .next t) ∨
        (∃ u, Turn s u ∧ u.cons.phase ≠ .service ∧ exec .dequeue u = .next t) ∨
        (∃ u f v, Turn s u ∧ u.cons.phase = .service ∧ u.cons.frame = some f ∧
          exec (requestOf u.params f) u = .next v ∧ t = retire v)) := by
    intro u hu
    rw [fetch_turn hu] at h
    unfold fetchConsumer at h
    cases hp : u.cons.phase with
    | service =>
      cases hf : u.cons.frame with
      | none   => simp [hp, hf, runFetched] at h
      | some f =>
        simp only [hp, hf, runFetched] at h
        obtain ⟨v, hx, e⟩ := andThen_eq_next.1 h
        exact .inr (.inr ⟨u, f, v, hu, hp, hf, hx, (Host.Outcome.next.inj e).symm⟩)
    | idle | deq1 | deq2 | deq3 | deq4 =>
      simp only [hp, runFetched] at h
      exact .inr (.inl ⟨u, hu, by simp [hp], h⟩)
  cases hi : s.env.inbox with
  | nil => exact hi ▸ consumer s (.idle hi)
  | cons x rest =>
    cases x with
    | turn    => exact hi ▸ consumer _ (.given rest hi)
    | event w =>
      unfold fetch at h
      simp only [hi] at h
      cases hd : decode s.params w with
      | error e => simp [hd, runFetched] at h
      | ok i    =>
        simp only [hd, runFetched] at h
        exact .inl ⟨w, rest, i, rfl, hd, h⟩

end Sys2Proof.Machine
end

