-- ==== Sys2Proof/Laws/Queue.lean ====
section
/-! SUPPORT. The queued frames as a list (R29), and runs of several steps. -/

namespace Sys2Proof.Machine

@[simp] theorem slotsFrom_length (q : RingBuffer) (start : SlotIndex) (n : Nat) : (q.slotsFrom start n).length = n := by
  simp [RingBuffer.slotsFrom]

/-- The oldest frame first. -/
theorem slotsFrom_cons (q : RingBuffer) (start : SlotIndex) (n : Nat) :
    q.slotsFrom start (n + 1) = q.slotRead start :: q.slotsFrom (advance start) n := by
  unfold RingBuffer.slotsFrom
  rw [List.range_succ_eq_map]
  simp only [List.map_cons, List.map_map]
  congr 1
  · congr 1
    ext
    simp
  · apply List.map_congr_left
    intro k _
    simp only [Function.comp]
    congr 1
    ext
    simp [advance]
    omega

/-- The newest frame last. -/
theorem slotsFrom_snoc (q : RingBuffer) (start : SlotIndex) (n : Nat) :
    q.slotsFrom start (n + 1) = q.slotsFrom start n ++ [q.slotRead ⟨(start.val + n) % 16, by omega⟩] := by
  unfold RingBuffer.slotsFrom
  rw [List.range_succ]
  simp

/-- The queued frames depend on their own slots only. -/
theorem slotsFrom_congr (q r : RingBuffer) (start : SlotIndex) (n : Nat)
    (h : ∀ k, k < n → q.slotRead ⟨(start.val + k) % 16, by omega⟩ = r.slotRead ⟨(start.val + k) % 16, by omega⟩) :
    q.slotsFrom start n = r.slotsFrom start n := by
  unfold RingBuffer.slotsFrom
  exact List.map_congr_left fun k hk => h k (List.mem_range.1 hk)

/-- A run goes on with its first step's next state. -/
theorem core_run_next (M : Host.Core) (n : Nat) {s t : M.State} (h : M.step s = .next t) : M.run (n + 1) s = M.run n t := by
  simp [Host.Core.run, h]

/-- The same for this machine. -/
theorem run_next (n : Nat) {s t : State} (h : step s = .next t) :
    Host.Core.run Sys2Proof.core (n + 1) s = Host.Core.run Sys2Proof.core n t :=
  core_run_next Sys2Proof.core n h

end Sys2Proof.Machine
end

