-- ==== Sys2Proof/Tests/Slice0.lean ====
section
/-! SUPPORT. Tests: expected results are those printed in spec/95_test_vectors.md (its row or program is named in each comment) or
worked by hand from the rule named. Then a witness for the hypotheses of each statement that has any. -/

namespace Sys2Proof.Tests

open Sys2Proof.Machine

/-! ### Helpers -/

/-- The next state of an outcome. -/
def after (r : Result) : Option State :=
  match r with
  | .next s    => some s
  | .fault _   => none
  | .refused _ => none

/-- The refusal of an outcome. -/
def refusal (r : Result) : Option Refusal :=
  match r with
  | .next _    => none
  | .fault _   => none
  | .refused e => some e

/-- Reset, with transmissions that go out and a setter that stores 511 for the current of channel 0 (the stub of program P1) and
250 for the temperature of channel 1. -/
def start : State :=
  State.reset.setEnv { Environment.reset with txResults := List.replicate 3 .sent, setterAnswers := [.stored #v[511, 0, 0] #v[0, 250, 0]] }

/-- Eight bytes in wire order as a frame of the reference instantiation. -/
def wire (b0 b1 b2 b3 b4 b5 b6 b7 : Byte) : Frame := decodeFrame Params.reference #v[b0, b1, b2, b3, b4, b5, b6, b7]

/-- The responses and reports a request leaves, from a state. -/
def answer (i : Instr) (s : State) : Option (List Output) := (after (exec i s)).map State.trace

/-- One transmission that went out. -/
def sent (b0 b1 b2 b3 b4 b5 b6 b7 : Byte) : Output := .txFrame #v[b0, b1, b2, b3, b4, b5, b6, b7] .sent

/-- A capture channel of the ordinary kind, with a sample ready (end of trace E1). -/
def measured : CapChannel := ⟨3000, true, 500, 2000, 25, true, .awaitingRising, .rising⟩

/-- `start` with a sample ready on channel 0. -/
def sampled : State := start.setCap 0 measured

/-- `start` with one frame queued. -/
def holding (f : Frame) : State := start.setFifo (start.fifo.push f)

/-- `start` in the middle of a frame: `k` bytes are there. -/
def receiving (k : Nat) : State := start.setRx ⟨.accumulating, k, #v[0xAA, 0x01, 0x32, 0x02, 0x00, 0x00, 0x31, 0x00], true⟩

/-- `start` with a full ring buffer. -/
def full : State := start.setFifo ⟨.replicate 16 (wire 0xAA 0x02 0x31 0x02 0x01 0x00 0x30 0x55), 0, 0, 16⟩

/-- `start` with the consumer in a phase. -/
def inPhase (ph : Phase) (f : Option Frame) : State := start.setCons ⟨ph, f⟩

/-! ### Well-formedness: an ill-formed term for each check -/

theorem test_illformed_row_ping :
    Instr.wellFormed Params.reference (.ping (wire 0xAA 0x01 0x53 0x04 0 0 0x54 0x55)) = false := by decide
theorem test_illformed_row_getPwmInput :
    Instr.wellFormed Params.reference (.getPwmInput (wire 0xAA 0x01 0x31 0x02 0 0 0x31 0x55)) = false := by decide
theorem test_illformed_row_getCurrent :
    Instr.wellFormed Params.reference (.getCurrent (wire 0xAA 0x02 0x31 0x02 0 0 0x31 0x55)) = false := by decide
theorem test_illformed_row_getTemperature :
    Instr.wellFormed Params.reference (.getTemperature (wire 0xAA 0x01 0x31 0x02 0 0 0x31 0x55)) = false := by decide
theorem test_illformed_row_setCurrent :
    Instr.wellFormed Params.reference (.setCurrent (wire 0xAA 0x01 0x31 0x02 0 0 0x31 0x55)) = false := by decide
theorem test_illformed_row_setTemperature :
    Instr.wellFormed Params.reference (.setTemperature (wire 0xAA 0x02 0x31 0x01 0 0 0x31 0x55)) = false := by decide
theorem test_illformed_row_setPwmInput :
    Instr.wellFormed Params.reference (.setPwmInput (wire 0xAA 0x02 0x31 0x02 0 0 0x31 0x55)) = false := by decide
theorem test_illformed_row_getOther :
    Instr.wellFormed Params.reference (.getOther (wire 0xAA 0x01 0x31 0x03 0 0 0x31 0x55)) = false := by decide
theorem test_illformed_row_setOther :
    Instr.wellFormed Params.reference (.setOther (wire 0xAA 0x02 0x31 0x01 0 0 0x31 0x55)) = false := by decide
theorem test_illformed_row_unknownCmd :
    Instr.wellFormed Params.reference (.unknownCmd (wire 0xAA 0x03 0x31 0x01 0 0 0x31 0x55)) = false := by decide
theorem test_illformed_start_marker :
    Instr.wellFormed Params.reference (.ping (wire 0xAB 0x03 0x53 0x04 0 0 0x54 0x55)) = false := by decide
theorem test_illformed_end_marker :
    Instr.wellFormed Params.reference (.ping (wire 0xAA 0x03 0x53 0x04 0 0 0x54 0x54)) = false := by decide
theorem test_illformed_isr_channel : Instr.wellFormed Params.reference (.rspIsrError 1 0 0) = false := by decide
theorem test_illformed_isr_signal : Instr.wellFormed Params.reference (.rspIsrError 0 1 0) = false := by decide
theorem test_illformed_isr_value : Instr.wellFormed Params.reference (.rspIsrError 0 0 1) = false := by decide
theorem test_illformed_stamp_edge : Instr.wellFormed Params.reference (.edge 0 65536) = false := by decide
theorem test_illformed_stamp_wrapsub_a : Instr.wellFormed Params.reference (.wrapsub 65536 0) = false := by decide
theorem test_illformed_stamp_wrapsub_b : Instr.wellFormed Params.reference (.wrapsub 0 65536) = false := by decide
theorem test_illformed_stamp_duty_width : Instr.wellFormed Params.reference (.duty 65536 1) = false := by decide
theorem test_illformed_stamp_duty_period : Instr.wellFormed Params.reference (.duty 1 65536) = false := by decide
theorem test_wellformed_edge : Instr.wellFormed Params.reference (.edge 2 65535) = true := by decide
/-- R9 holds of the reference instantiation R10, and not when two commands are equal. -/
theorem test_reference_valid : Params.reference.valid = true := by decide
theorem test_equal_commands_invalid : Params.valid { Params.reference with cmdSet := 0x01 } = false := by decide

/-! ### Decoding: words written out from R90, R99, R100, R103 and opcode_table.json -/

/-- K4. -/
theorem test_decode_ping :
    decodeTableWord 64 0xAA03530400005455 = some (.ping ⟨0xAA, 0x03, 0x53, 0x04, 0, 0x54, 0x55⟩) := by decide
/-- K10. -/
theorem test_decode_getPwmInput :
    decodeTableWord 64 0xAA01310100003155 = some (.getPwmInput ⟨0xAA, 0x01, 0x31, 0x01, 0, 0x31, 0x55⟩) := by decide
/-- K1. -/
theorem test_decode_getCurrent :
    decodeTableWord 64 0xAA01320200003155 = some (.getCurrent ⟨0xAA, 0x01, 0x32, 0x02, 0, 0x31, 0x55⟩) := by decide
/-- X5. -/
theorem test_decode_getTemperature :
    decodeTableWord 64 0xAA01310300003355 = some (.getTemperature ⟨0xAA, 0x01, 0x31, 0x03, 0, 0x33, 0x55⟩) := by decide
/-- K15: byte order visible. -/
theorem test_decode_setCurrent :
    decodeTableWord 64 0xAA02310234121755 = some (.setCurrent ⟨0xAA, 0x02, 0x31, 0x02, 0x1234, 0x17, 0x55⟩) := by decide
/-- K3. -/
theorem test_decode_setTemperature :
    decodeTableWord 64 0xAA023203FA00C955 = some (.setTemperature ⟨0xAA, 0x02, 0x32, 0x03, 250, 0xC9, 0x55⟩) := by decide
/-- X9. -/
theorem test_decode_setPwmInput :
    decodeTableWord 64 0xAA02310132000055 = some (.setPwmInput ⟨0xAA, 0x02, 0x31, 0x01, 50, 0x00, 0x55⟩) := by decide
/-- X10. -/
theorem test_decode_getOther :
    decodeTableWord 64 0xAA01310400003455 = some (.getOther ⟨0xAA, 0x01, 0x31, 0x04, 0, 0x34, 0x55⟩) := by decide
/-- X18. -/
theorem test_decode_setOther :
    decodeTableWord 64 0xAA02310901003B55 = some (.setOther ⟨0xAA, 0x02, 0x31, 0x09, 1, 0x3B, 0x55⟩) := by decide
/-- X11. -/
theorem test_decode_unknownCmd :
    decodeTableWord 64 0xAA7E310200004D55 = some (.unknownCmd ⟨0xAA, 0x7E, 0x31, 0x02, 0, 0x4D, 0x55⟩) := by decide
/-- The response of X6; a bare word of command 00 is read as the more specific response row (entry 12). -/
theorem test_decode_rspSetOk : decodeTableWord 64 0xAA00310274400755 = some (.rspSetOk 0x31 0x02 16500) := by decide
/-- K13. -/
theorem test_decode_rspPingOk : decodeTableWord 64 0xAA00530400015655 = some (.rspPingOk) := by decide
/-- The response of X3. -/
theorem test_decode_rspError : decodeTableWord 64 0xAAFF32020000CF55 = some (.rspError 0x32 0x02 0) := by decide
/-- K14. -/
theorem test_decode_rspIsrError : decodeTableWord 64 0xAAFF00000000FF55 = some (.rspIsrError 0 0 0) := by decide
theorem test_decode_rxByte : decodeTableWord 8 0xAA = some (.rxByte 0xAA) := by decide
/-- The operands of K2. -/
theorem test_decode_cksum : decodeTableWord 40 0x0231024074 = some (.cksum 0x02 0x31 0x02 16500) := by decide
/-- E2. -/
theorem test_decode_edge : decodeTableWord 24 0x01FDE8 = some (.edge 1 65000) := by decide
theorem test_decode_sampleTake : (decode Params.reference ⟨.sampleTake, [0x02]⟩).toOption = some (.sampleTake 2) := by decide
/-- W3. -/
theorem test_decode_wrapsub :
    (decode Params.reference ⟨.wrapsub, [0x01, 0x2C, 0xFD, 0xE8]⟩).toOption = some (.wrapsub 300 65000) := by decide
/-- Y1. -/
theorem test_decode_duty :
    (decode Params.reference ⟨.duty, [0x01, 0xF4, 0x07, 0xD0]⟩).toOption = some (.duty 500 2000) := by decide
/-- The response of X5. -/
theorem test_decode_rspGetOk :
    (decode Params.reference ⟨.rspGetOk, [0xAA, 0x31, 0x31, 0x03, 0x00, 0x02, 0x01, 0x55]⟩).toOption = some (.rspGetOk 0x31 0x03 512) := by decide
/-- K2. -/
theorem test_decode_enqueue :
    (decode Params.reference ⟨.enqueue, [0xAA, 0x02, 0x31, 0x02, 0x74, 0x40, 0x05, 0x55]⟩).toOption =
      some (.enqueue ⟨0xAA, 0x02, 0x31, 0x02, 16500, 0x05, 0x55⟩) := by decide
/-- K2. -/
theorem test_decode_validate :
    (decode Params.reference ⟨.validate, [0xAA, 0x02, 0x31, 0x02, 0x74, 0x40, 0x05, 0x55]⟩).toOption =
      some (.validate ⟨0xAA, 0x02, 0x31, 0x02, 16500, 0x05, 0x55⟩) := by decide
/-- K2. -/
theorem test_decode_markersValid :
    (decode Params.reference ⟨.markersValid, [0xAA, 0x02, 0x31, 0x02, 0x74, 0x40, 0x05, 0x55]⟩).toOption =
      some (.markersValid ⟨0xAA, 0x02, 0x31, 0x02, 16500, 0x05, 0x55⟩) := by decide
/-- K2. -/
theorem test_decode_frameValid :
    (decode Params.reference ⟨.frameValid, [0xAA, 0x02, 0x31, 0x02, 0x74, 0x40, 0x05, 0x55]⟩).toOption =
      some (.frameValid ⟨0xAA, 0x02, 0x31, 0x02, 16500, 0x05, 0x55⟩) := by decide
/-- K2. -/
theorem test_decode_encodeFrame :
    (decode Params.reference ⟨.encodeFrame, [0xAA, 0x02, 0x31, 0x02, 0x74, 0x40, 0x05, 0x55]⟩).toOption =
      some (.encodeFrame ⟨0xAA, 0x02, 0x31, 0x02, 16500, 0x05, 0x55⟩) := by decide
/-- K2. -/
theorem test_decode_decodeFrame :
    (decode Params.reference ⟨.decodeFrame, [0xAA, 0x02, 0x31, 0x02, 0x74, 0x40, 0x05, 0x55]⟩).toOption =
      some (.decodeFrame #v[0xAA, 0x02, 0x31, 0x02, 0x74, 0x40, 0x05, 0x55]) := by decide
theorem test_decode_dequeue : (decode Params.reference ⟨.deq, []⟩).toOption = some .dequeue := by decide
theorem test_decode_initRx : (decode Params.reference ⟨.initRx, []⟩).toOption = some .initRx := by decide
theorem test_decode_initFifo : (decode Params.reference ⟨.initFifo, []⟩).toOption = some .initFifo := by decide
theorem test_decode_initCapture : (decode Params.reference ⟨.initCapture, []⟩).toOption = some .initCapture := by decide
/-- K23: a wrong end marker is no request (R101 a). -/
theorem test_decode_rejects_markers :
    (decode Params.reference ⟨.request, [0xAA, 0x01, 0x32, 0x02, 0x00, 0x00, 0x31, 0x54]⟩).toOption = none := by decide
/-- R102: no other length. -/
theorem test_decode_rejects_length : (decode Params.reference ⟨.request, [0xAA, 0x01, 0x55]⟩).toOption = none := by decide
/-- R13: a channel index is 0, 1 or 2. -/
theorem test_decode_rejects_channel : (decode Params.reference ⟨.sampleTake, [0x03]⟩).toOption = none := by decide

/-! ### A word where the next step fetches it -/

/-- X1. -/
theorem test_fetch_ping :
    (after (step (start.withFetchWord 64 0xAA03530400005455))).map State.trace =
      some [sent 0xAA 0x00 0x53 0x04 0x00 0x01 0x56 0x55] := by decide
/-- The operands of K2. -/
theorem test_fetch_cksum : (after (step (start.withFetchWord 40 0x0231024074))).map State.reply = some (.byte 0x05) := by
  decide

/-! ### Requests: rows of 95_test_vectors.md 2.6 -/

/-- X2. -/
theorem test_ping :
    answer (.ping (wire 0xAA 0x03 0x31 0x01 0x34 0x12 0x15 0x55)) start =
      some [sent 0xAA 0x00 0x53 0x04 0x00 0x01 0x56 0x55] := by decide
/-- X8. -/
theorem test_getPwmInput :
    answer (.getPwmInput (wire 0xAA 0x01 0x31 0x01 0x00 0x00 0x31 0x55)) sampled =
      some [sent 0xAA 0x31 0x31 0x01 0x19 0x00 0x18 0x55] := by decide
/-- X8b. -/
theorem test_getPwmInput_empty :
    answer (.getPwmInput (wire 0xAA 0x01 0x31 0x01 0x00 0x00 0x31 0x55)) start =
      some [.errReport .unreadableSample (.frame (wire 0xAA 0x01 0x31 0x01 0x00 0x00 0x31 0x55)),
        sent 0xAA 0xFF 0x31 0x01 0x00 0x00 0xCF 0x55] := by decide
/-- X4. -/
theorem test_getCurrent :
    answer (.getCurrent (wire 0xAA 0x01 0x33 0x02 0x00 0x00 0x30 0x55)) start =
      some [.saGet .current 2 0, sent 0xAA 0x33 0x33 0x02 0x00 0x00 0x02 0x55] := by decide
/-- X14. -/
theorem test_getCurrent_below :
    answer (.getCurrent (wire 0xAA 0x01 0x30 0x02 0x00 0x00 0x33 0x55)) start =
      some [.errReport .invalidChannel (.frame (wire 0xAA 0x01 0x30 0x02 0x00 0x00 0x33 0x55)),
        sent 0xAA 0xFF 0x30 0x02 0x00 0x00 0xCD 0x55] := by decide
/-- X5. -/
theorem test_getTemperature :
    answer (.getTemperature (wire 0xAA 0x01 0x31 0x03 0x00 0x00 0x33 0x55)) (start.setSa ⟨#v[0, 0, 0], #v[512, 0, 0]⟩) =
      some [.saGet .temperature 0 512, sent 0xAA 0x31 0x31 0x03 0x00 0x02 0x01 0x55] := by decide
/-- X15. -/
theorem test_getTemperature_above :
    answer (.getTemperature (wire 0xAA 0x01 0x34 0x03 0x00 0x00 0x36 0x55)) start =
      some [.errReport .invalidChannel (.frame (wire 0xAA 0x01 0x34 0x03 0x00 0x00 0x36 0x55)),
        sent 0xAA 0xFF 0x34 0x03 0x00 0x00 0xC8 0x55] := by decide
/-- X6. -/
theorem test_setCurrent :
    answer (.setCurrent (wire 0xAA 0x02 0x31 0x02 0x74 0x40 0x05 0x55)) start =
      some [.saSet .current 0 16500 true, sent 0xAA 0x00 0x31 0x02 0x74 0x40 0x07 0x55] := by decide
/-- X17. -/
theorem test_setCurrent_refused :
    answer (.setCurrent (wire 0xAA 0x02 0x31 0x02 0xE9 0x80 0x58 0x55)) (start.setEnv { start.env with setterAnswers := [.refused] }) =
      some [.saSet .current 0 33001 false,
        .errReport .invalidChannel (.frame (wire 0xAA 0x02 0x31 0x02 0xE9 0x80 0x58 0x55)),
        sent 0xAA 0xFF 0x31 0x02 0xE9 0x80 0xA5 0x55] := by decide
/-- X7. -/
theorem test_setTemperature :
    answer (.setTemperature (wire 0xAA 0x02 0x32 0x03 0xFA 0x00 0xC9 0x55)) start =
      some [.saSet .temperature 1 250 true, sent 0xAA 0x00 0x32 0x03 0xFA 0x00 0xCB 0x55] := by decide
/-- X7: what the setter stored is what the getters return. -/
theorem test_setTemperature_stores :
    (after (exec (.setTemperature (wire 0xAA 0x02 0x32 0x03 0xFA 0x00 0xC9 0x55)) start)).map State.sa =
      some ⟨#v[511, 0, 0], #v[0, 250, 0]⟩ := by decide
/-- X9. -/
theorem test_setPwmInput :
    answer (.setPwmInput (wire 0xAA 0x02 0x31 0x01 0x32 0x00 0x00 0x55)) start =
      some [.errReport .invalidSignalForOperation (.frame (wire 0xAA 0x02 0x31 0x01 0x32 0x00 0x00 0x55)),
        sent 0xAA 0xFF 0x31 0x01 0x32 0x00 0xFD 0x55] := by decide
/-- X19: the channel is tested before the signal. -/
theorem test_setPwmInput_channel :
    answer (.setPwmInput (wire 0xAA 0x02 0x34 0x01 0x07 0x00 0x30 0x55)) start =
      some [.errReport .invalidChannel (.frame (wire 0xAA 0x02 0x34 0x01 0x07 0x00 0x30 0x55)),
        sent 0xAA 0xFF 0x34 0x01 0x07 0x00 0xCD 0x55] := by decide
/-- X10. -/
theorem test_getOther :
    answer (.getOther (wire 0xAA 0x01 0x31 0x04 0x00 0x00 0x34 0x55)) start =
      some [.errReport .invalidSignalForOperation (.frame (wire 0xAA 0x01 0x31 0x04 0x00 0x00 0x34 0x55)),
        sent 0xAA 0xFF 0x31 0x04 0x00 0x00 0xCA 0x55] := by decide
/-- X18. -/
theorem test_setOther :
    answer (.setOther (wire 0xAA 0x02 0x31 0x09 0x01 0x00 0x3B 0x55)) start =
      some [.errReport .invalidSignalForOperation (.frame (wire 0xAA 0x02 0x31 0x09 0x01 0x00 0x3B 0x55)),
        sent 0xAA 0xFF 0x31 0x09 0x01 0x00 0xC6 0x55] := by decide
/-- X11. -/
theorem test_unknownCmd :
    answer (.unknownCmd (wire 0xAA 0x7E 0x31 0x02 0x00 0x00 0x4D 0x55)) start =
      some [.errReport .invalidSignalForOperation (.frame (wire 0xAA 0x7E 0x31 0x02 0x00 0x00 0x4D 0x55)),
        sent 0xAA 0xFF 0x31 0x02 0x00 0x00 0xCC 0x55] := by decide
/-- X22: the same bytes, the outcome Timeout, one report, no retry. -/
theorem test_timeout :
    answer .rspPingOk (start.setEnv { start.env with txResults := [.timeout] }) =
      some [.txFrame #v[0xAA, 0x00, 0x53, 0x04, 0x00, 0x01, 0x56, 0x55] .timeout,
        .errReport .transmitTimeout (.frame ⟨0xAA, 0x00, 0x53, 0x04, 0x0100, 0x56, 0x55⟩)] := by decide
/-- X21. -/
theorem test_status_ok_parameter :
    encodeFrame Params.reference (getOkResponse { Params.reference with getOkCommand := .statusOk } 0x33 0x02 0) =
      #v[0xAA, 0x00, 0x33, 0x02, 0x00, 0x00, 0x31, 0x55] := by decide

/-! ### Responses -/

/-- The response of X5. -/
theorem test_rspGetOk :
    answer (.rspGetOk 0x31 0x03 512) start =
      some [sent 0xAA 0x31 0x31 0x03 0x00 0x02 0x01 0x55] := by decide
/-- The response of X6. -/
theorem test_rspSetOk :
    answer (.rspSetOk 0x31 0x02 16500) start =
      some [sent 0xAA 0x00 0x31 0x02 0x74 0x40 0x07 0x55] := by decide
/-- K13. -/
theorem test_rspPingOk : answer (.rspPingOk) start =
      some [sent 0xAA 0x00 0x53 0x04 0x00 0x01 0x56 0x55] := by decide
/-- The response of X3. -/
theorem test_rspError :
    answer (.rspError 0x32 0x02 0) start =
      some [sent 0xAA 0xFF 0x32 0x02 0x00 0x00 0xCF 0x55] := by decide
/-- K14. -/
theorem test_rspIsrError :
    answer (.rspIsrError 0 0 0) start =
      some [sent 0xAA 0xFF 0x00 0x00 0x00 0x00 0xFF 0x55] := by decide

/-! ### Receiver -/

/-- V1, its last byte. -/
theorem test_rxByte_enqueues :
    (after (exec (.rxByte 0x55) (receiving 7))).map (fun s => (s.rx.state, s.rx.index, s.fifo.tail, s.fifo.count, s.trace)) =
      some (.awaitingStart, 0, 1, 1, [.rxRearm]) := by decide
/-- V2, its last byte. -/
theorem test_rxByte_malformed :
    (after (exec (.rxByte 0x54) (receiving 7))).map State.trace =
      some [.errReport .malformedFrame (.raw #v[0xAA, 0x01, 0x32, 0x02, 0x00, 0x00, 0x31, 0x54]),
        sent 0xAA 0xFF 0x00 0x00 0x00 0x00 0xFF 0x55, .rxRearm] := by decide
/-- R142: a partial frame is discarded. -/
theorem test_initRx :
    (after (exec .initRx (receiving 5))).map State.rx = some ⟨.awaitingStart, 0, #v[0, 0, 0, 0, 0, 0, 0, 0], true⟩ := by decide

/-! ### Ring buffer -/

/-- Q10: the tail wraps. -/
theorem test_enqueue :
    (after (exec (.enqueue (wire 0xAA 0x02 0x31 0x02 0x74 0x40 0x05 0x55)) (start.setFifo ⟨.replicate 16 Frame.zero, 15, 15, 0⟩))).map
      (fun s => (s.fifo.head, s.fifo.tail, s.fifo.count, s.fifo.slot[15], s.reply)) =
      some (15, 0, 1, (wire 0xAA 0x02 0x31 0x02 0x74 0x40 0x05 0x55), .bool true) := by decide
/-- Q4. -/
theorem test_enqueue_full :
    (after (exec (.enqueue (wire 0xAA 0x02 0x31 0x02 0x74 0x40 0x05 0x55)) full)).map (fun s => (s.fifo, s.reply)) = some (full.fifo, .bool false) := by decide
/-- Q1. -/
theorem test_dequeue_empty :
    (after (exec .dequeue start)).map (fun s => (s.cons, s.reply, s.fifo)) = some (⟨.idle, none⟩, .dequeued none, start.fifo) := by decide
/-- Q7, deq.4. -/
theorem test_dequeue_release :
    (after (exec .dequeue ((inPhase .deq4 (some (wire 0xAA 0x02 0x31 0x02 0x74 0x40 0x05 0x55))).setFifo ⟨.replicate 16 Frame.zero, 1, 0, 16⟩))).map
      (fun s => (s.fifo.head, s.fifo.tail, s.fifo.count, s.reply)) = some (1, 0, 15, .dequeued (some (wire 0xAA 0x02 0x31 0x02 0x74 0x40 0x05 0x55))) := by decide
/-- R173: queued frames are discarded without a response. -/
theorem test_initFifo : (after (exec .initFifo full)).map (fun s => (s.fifo, s.trace)) = some (start.fifo, []) := by decide
/-- U8. -/
theorem test_initFifo_inside : refusal (exec .initFifo (inPhase .deq3 none)) = some .initFifoInsideDequeue := by decide

/-! ### Checksum and codec -/

/-- K6. -/
theorem test_cksum_ones : (after (exec (.cksum 0xFF 0xFF 0xFF 65535) start)).map State.reply = some (.byte 0xFF) := by decide
/-- K22: compensating flips pass. -/
theorem test_validate :
    (after (exec (.validate (wire 0xAA 0x01 0x33 0x03 0x00 0x00 0x31 0x55)) start)).map State.reply = some (.bool true) := by decide
/-- K21. -/
theorem test_validate_flip :
    (after (exec (.validate (wire 0xAA 0x02 0x31 0x02 0x74 0x00 0x05 0x55)) start)).map State.reply = some (.bool false) := by decide
/-- K24. -/
theorem test_markersValid :
    (after (exec (.markersValid (wire 0xAA 0x01 0x32 0x02 0x00 0x00 0x30 0x55)) start)).map State.reply = some (.bool true) := by decide
/-- K23. -/
theorem test_markersValid_end :
    (after (exec (.markersValid (wire 0xAA 0x01 0x32 0x02 0x00 0x00 0x31 0x54)) start)).map State.reply = some (.bool false) := by decide
/-- K1. -/
theorem test_frameValid :
    (after (exec (.frameValid (wire 0xAA 0x01 0x32 0x02 0x00 0x00 0x31 0x55)) start)).map State.reply = some (.bool true) := by decide
/-- K23. -/
theorem test_frameValid_end :
    (after (exec (.frameValid (wire 0xAA 0x01 0x32 0x02 0x00 0x00 0x31 0x54)) start)).map State.reply = some (.bool false) := by decide
/-- K2. -/
theorem test_encodeFrame :
    (after (exec (.encodeFrame ⟨0xAA, 0x02, 0x31, 0x02, 16500, 0x05, 0x55⟩) start)).map State.reply = some (.bytes #v[0xAA, 0x02, 0x31, 0x02, 0x74, 0x40, 0x05, 0x55]) := by decide
/-- K16. -/
theorem test_encode_high_first :
    encodeFrame { Params.reference with valueLowFirst := false } ⟨0xAA, 0x02, 0x31, 0x02, 16500, 0x05, 0x55⟩ =
      #v[0xAA, 0x02, 0x31, 0x02, 0x40, 0x74, 0x05, 0x55] := by decide
/-- K9. -/
theorem test_decodeFrame :
    (after (exec (.decodeFrame #v[0xAA, 0x02, 0x31, 0x02, 0xAA, 0x55, 0xCE, 0x55]) start)).map State.reply = some (.frame ⟨0xAA, 0x02, 0x31, 0x02, 0x55AA, 0xCE, 0x55⟩) := by decide

/-! ### Capture -/

/-- E2, second edge; E7: the other channels stay. -/
theorem test_edge_wraps :
    (after (exec (.edge 1 300) (start.setCap 1 ⟨65000, true, 0, 0, 0, false, .awaitingFalling, .falling⟩))).map State.cap =
      some #v[CapChannel.reset, ⟨65000, true, 836, 0, 0, false, .awaitingRising, .rising⟩, CapChannel.reset] := by decide
/-- E1, fourth edge. -/
theorem test_edge_publishes :
    (after (exec (.edge 0 3500) (start.setCap 0 ⟨3000, true, 500, 2000, 0, false, .awaitingFalling, .falling⟩))).map
      (fun s => s.cap[0]) = some measured := by decide
/-- W3. -/
theorem test_wrapsub : (after (exec (.wrapsub 300 65000) start)).map State.reply = some (.ticks 836) := by decide
/-- W9. -/
theorem test_wrapsub_revolution :
    (after (exec (.wrapsub 1000 1001) start)).map State.reply = some (.ticks 65535) := by decide
/-- Y5: floor, not rounded. -/
theorem test_duty : (after (exec (.duty 2 3) start)).map State.reply = some (.duty 66) := by decide
/-- Y15. -/
theorem test_duty_narrow : (after (exec (.duty 65535 1) start)).map State.reply = some (.duty 65436) := by decide
/-- E1, first take. -/
theorem test_sampleTake :
    (after (exec (.sampleTake 0) sampled)).map (fun s => (s.reply, s.cap[0])) =
      some (.sample true 25, { measured with sampleReady := false }) := by decide
/-- R210. -/
theorem test_initCapture :
    (after (exec .initCapture sampled)).map State.cap = some (.replicate 3 CapChannel.reset) := by decide
/-- U10. -/
theorem test_initCapture_zero :
    refusal (exec .initCapture (start.setEnv { start.env with counterMax := 0 })) = some .counterMaxZero := by decide

/-! ### Witnesses: a state and operands that meet the hypotheses of each statement, each clause at a boundary -/

/-- K2, a SET of current on channel '1'. -/
def setFrame : Frame := wire 0xAA 0x02 0x31 0x02 0x74 0x40 0x05 0x55

/-- A GET of current on channel '1' (program P1). -/
def getFrame : Frame := wire 0xAA 0x01 0x31 0x02 0x00 0x00 0x32 0x55

/-- A GET of PWM-input on channel '1' (X8). -/
def pwmFrame : Frame := wire 0xAA 0x01 0x31 0x01 0x00 0x00 0x31 0x55

/-- K4, a PING. -/
def pingFrame : Frame := wire 0xAA 0x03 0x53 0x04 0x00 0x00 0x54 0x55

/-- X3, a GET of current with a wrong checksum. -/
def wrongFrame : Frame := wire 0xAA 0x01 0x32 0x02 0x00 0x00 0x30 0x55

/-- X14, a GET of current on the byte before CH_1. -/
def strayFrame : Frame := wire 0xAA 0x01 0x30 0x02 0x00 0x00 0x33 0x55

/-- `start` with events to come. -/
def coming (l : List InboxItem) : State := start.setInbox l

theorem start_inv_nil : start.Inv := by
  constructor <;> first | decide | rfl

theorem start_inv (l : List InboxItem) : (coming l).Inv :=
  ⟨start_inv_nil.params, start_inv_nil.fifoUp, start_inv_nil.capUp, start_inv_nil.armed, start_inv_nil.rx,
    start_inv_nil.fifo, start_inv_nil.cons, start_inv_nil.cap, start_inv_nil.sa⟩

theorem test_witness_EveryInstructionDecodesFromItsEncoding :
    Params.reference.valid = true ∧ (Instr.edge 2 65535).wellFormed Params.reference = true ∧
    (Instr.rspIsrError 0 0 0).wellFormed Params.reference = true ∧
    (Instr.rspIsrError 1 2 3).wellFormed { Params.reference with isrErrorFields := .unstated } = true := by decide

theorem test_witness_RequestFrameSelectsExactlyItsRow :
    Params.reference.valid = true ∧ requestOf Params.reference setFrame = .setCurrent setFrame ∧
    requestFrame (.setCurrent setFrame) = some setFrame ∧
    (Instr.setCurrent setFrame).rowHolds Params.reference = true := by decide

theorem test_witness_ValueBytesFollowByteOrder :
    Params.reference.valueLowFirst = true ∧ ({ Params.reference with valueLowFirst := false }).valueLowFirst = false := by
  decide

theorem test_witness_ChannelIndexIsTheDifferenceInRange :
    channelIndex Params.reference 0x30 = none ∧ channelIndex Params.reference 0x31 = some 0 ∧
    channelIndex Params.reference 0x33 = some 2 ∧ channelIndex Params.reference 0x34 = none := by decide

theorem test_witness_StepRunsTheDecodedEvent :
    (coming [.event ⟨.rxByte, [0xAA]⟩]).params.valid = true ∧
    (coming [.event ⟨.rxByte, [0xAA]⟩]).env.inbox = .event ⟨.rxByte, [0xAA]⟩ :: [] ∧
    (decode (coming [.event ⟨.rxByte, [0xAA]⟩]).params ⟨.rxByte, [0xAA]⟩) = .ok (.rxByte 0xAA) :=
  ⟨by decide, rfl, rfl⟩

theorem test_witness_StepRunsTheConsumersTurn :
    start.params.valid = true ∧ (start.env.inbox = [] ∧ start.cons.phase ≠ .service) ∧
    (coming [.turn]).env.inbox = .turn :: [] ∧
    (inPhase .service (some pingFrame)).cons = ⟨.service, some pingFrame⟩ ∧
    (∃ t, exec (requestOf start.params pingFrame) (inPhase .service (some pingFrame)) = .next t) ∧
    exec (requestOf start.params pwmFrame) ((inPhase .service (some pwmFrame)).setUp ⟨true, false⟩) =
      .refused .captureNotInitialised :=
  ⟨by decide, ⟨rfl, by decide⟩, rfl, rfl, ⟨_, rfl⟩, rfl⟩

theorem test_witness_SingleBitFlipIsAlwaysDetected : validate setFrame = true := by decide

/-- K22 is such a pair of flips. -/
theorem test_witness_BalancedFlipsPassAndNoOthers :
    validate (wire 0xAA 0x01 0x32 0x02 0x00 0x00 0x31 0x55) = true ∧
    validate (wire 0xAA 0x01 0x33 0x03 0x00 0x00 0x31 0x55) = true := by decide

theorem test_witness_WrapsubIsTheModularDifference :
    65535 ≤ Params.reference.counterMax ∧ 0 ≤ Params.reference.counterMax := by decide

theorem test_witness_WrapsubReturnsTicksOrIsRefused :
    65535 ≤ start.params.counterMax ∧ 65536 > start.params.counterMax := by decide

/-- Y13 below the boundary; 16384 * 100 / 25 is 65536 exactly. -/
theorem test_witness_DutyIsTheFlooredPercentage :
    (100 > 0 ∧ 65535 * 100 < 65536 * 100) ∧ (25 > 0 ∧ 16384 * 100 ≥ 65536 * 25) ∧
    start.params.dutyNarrow = .modulo := by decide

theorem test_witness_RisingEdgeMeasuresThePeriod :
    start.up.cap = true ∧ 65535 ≤ start.params.counterMax ∧ start.cap[0].edgeState = .awaitingRising ∧
    start.cap[0].haveRising = false ∧ sampled.cap[0].edgeState = .awaitingRising ∧ sampled.cap[0].haveRising = true := by
  decide

theorem test_witness_FallingEdgeMeasuresAndPublishes :
    start.up.cap = true ∧ 65535 ≤ start.params.counterMax ∧
    (let s := start.setCap 0 ⟨100, true, 0, 0, 0, false, .awaitingFalling, .falling⟩;
      s.cap[0].edgeState = .awaitingFalling ∧ s.cap[0].period = 0) ∧
    (let s := start.setCap 0 ⟨100, true, 0, 1, 0, false, .awaitingFalling, .falling⟩;
      s.cap[0].edgeState = .awaitingFalling ∧ s.cap[0].period > 0) := by decide

theorem test_witness_EdgesOfTwoChannelsCommute : (0 : ChannelIndex) ≠ 2 := by decide

theorem test_witness_ByteAndEdgeStepsCommute :
    (∃ t, exec (.rxByte 0xAA) start = .next t) ∧ (∃ u, exec (.edge 1 65535) start = .next u) :=
  ⟨⟨_, rfl⟩, ⟨_, rfl⟩⟩

theorem test_witness_FourthEdgePublishesTheFirstSample :
    start.up.cap = true ∧ start.cap[1] = CapChannel.reset ∧ 65000 ≤ start.params.counterMax ∧
    300 ≤ start.params.counterMax ∧ 65535 ≤ start.params.counterMax := by decide

theorem test_witness_SampleTakeReadsAndClears : sampled.up.cap = true := by decide

theorem test_witness_InitCaptureSetsEveryChannel :
    start.env.counterMax ≠ 0 ∧ (start.setEnv { start.env with counterMax := 0 }).env.counterMax = 0 := by decide

theorem test_witness_CaptureChannelHasOneWriter :
    (∃ t, exec (.sampleTake 0) sampled = .next t) ∧ Instr.sampleTake 0 ≠ .initCapture ∧
    (∀ ts, Instr.sampleTake 0 ≠ .edge 0 ts) ∧ (∃ t, exec (.getPwmInput pwmFrame) sampled = .next t) ∧
    (∃ t, exec (.edge 1 7) sampled = .next t) ∧ (∀ ts, Instr.edge 1 7 ≠ .edge 0 ts) :=
  ⟨⟨_, rfl⟩, by decide, nofun, ⟨_, rfl⟩, ⟨_, rfl⟩, nofun⟩

theorem test_witness_ByteOutsideAFrameIsDiscarded :
    start.rx.armed = true ∧ start.rx.state = .awaitingStart ∧ (0x55 : Byte) ≠ start.params.startMarker := by decide

theorem test_witness_StartMarkerBeginsAFrame :
    start.rx.armed = true ∧ start.rx.state = .awaitingStart ∧ (0xAA : Byte) = start.params.startMarker := by decide

theorem test_witness_ByteInsideAFrameIsStored :
    (receiving 1).rx.armed = true ∧ (receiving 1).rx.state = .accumulating ∧ (receiving 1).rx.index = 1 ∧
    (receiving 6).rx.index = 6 := by decide

theorem test_witness_EighthByteEnqueuesTheFrame :
    (receiving 7).rx.armed = true ∧ (receiving 7).rx.state = .accumulating ∧ (receiving 7).rx.index = 7 ∧
    (receiving 7).rx.buf[0] = start.params.startMarker ∧ (0x55 : Byte) = start.params.endMarker ∧
    (receiving 7).up.fifo = true ∧ ((receiving 7).setFifo { full.fifo with count := 15 }).fifo.count < 16 := by decide

theorem test_witness_EighthByteReportsAReceiverError :
    (receiving 7).rx.armed = true ∧ (receiving 7).rx.state = .accumulating ∧ (receiving 7).rx.index = 7 ∧
    (0x54 : Byte) ≠ start.params.endMarker ∧
    (start.setRx ⟨.accumulating, 7, .replicate 8 0, true⟩).rx.buf[0] ≠ start.params.startMarker ∧
    ((receiving 7).setFifo full.fifo).fifo.count = 16 ∧ (receiving 7).rx.buf[0] = start.params.startMarker ∧
    (0x55 : Byte) = start.params.endMarker ∧ (receiving 7).up.fifo = true := by decide

theorem test_witness_ReceptionStaysArmed :
    start.rx.armed = true ∧ (∃ t, exec (.rxByte 0x00) start = .next t) ∧ (∃ t, exec .dequeue start = .next t) :=
  ⟨rfl, ⟨_, rfl⟩, ⟨_, rfl⟩⟩

theorem test_witness_EightBytesDeliverTheFrame :
    start.rx.armed = true ∧ start.rx.state = .awaitingStart ∧ start.up.fifo = true ∧ start.fifo.count < 16 ∧
    markersValid start.params (wire 0xAA 0x02 0x31 0x02 0xAA 0x55 0xCE 0x55) = true := by decide

theorem test_witness_ByteStepIgnoresCaptureAndConsumer : ∃ t, exec (.rxByte 0x54) (receiving 7) = .next t := ⟨_, rfl⟩

theorem test_witness_EnqueueStoresOrRejects :
    start.up.fifo = true ∧ (full.setFifo { full.fifo with count := 15 }).fifo.count < 16 ∧ full.fifo.count = 16 := by decide

theorem test_witness_DequeueMicroSteps :
    start.up.fifo = true ∧ (start.cons.phase = .idle ∧ start.fifo.count = 0) ∧
    ((full.setCons ⟨.deq1, none⟩).cons.phase = .deq1 ∧ full.fifo.count > 0) ∧ (inPhase .deq2 none).cons.phase = .deq2 ∧
    (inPhase .deq3 (some setFrame)).cons.phase = .deq3 ∧ (inPhase .deq4 (some setFrame)).cons.phase = .deq4 ∧
    (inPhase .service (some setFrame)).cons.phase = .service := by decide

theorem test_witness_DequeueReturnsTheOldestFrame :
    (holding setFrame).up.fifo = true ∧ (holding setFrame).cons.phase = .idle ∧ (holding setFrame).queued = setFrame :: [] := by
  decide

theorem test_witness_SeventeenthEnqueueFails :
    start.up.fifo = true ∧ start.fifo.count = 0 ∧ start.fifo.tail = start.fifo.head ∧ start.cons.phase ≠ .deq4 ∧
    (List.replicate 16 setFrame).length = 16 := by decide

theorem test_witness_InitFifoEmptiesTheBuffer :
    start.cons.phase = .idle ∧ (inPhase .deq1 none).cons.phase = .deq1 ∧
    (inPhase .service (some setFrame)).cons.phase = .service ∧ (inPhase .deq2 none).cons.phase = .deq2 ∧
    (inPhase .deq4 (some setFrame)).cons.phase = .deq4 := by decide

/-- One frame queued, the consumer about to advance head past it. -/
def taking : State := (holding setFrame).setCons ⟨.deq3, some setFrame⟩

theorem taking_inv : taking.Inv := by
  constructor <;> first | decide | rfl

/-- One micro-step that takes, one event that queues, one that empties, one that does nothing. -/
theorem test_witness_RingBufferRefinesAQueue :
    (taking.Inv ∧ ∃ t, step taking = .next t) ∧
    ((coming [.event ⟨.enqueue, (encodeFrame Params.reference setFrame).toList⟩]).Inv ∧
      ∃ t, step (coming [.event ⟨.enqueue, (encodeFrame Params.reference setFrame).toList⟩]) = .next t) ∧
    ((coming [.event ⟨.initFifo, []⟩]).Inv ∧ ∃ t, step (coming [.event ⟨.initFifo, []⟩]) = .next t) ∧
    ((coming []).Inv ∧ ∃ t, step (coming []) = .next t) :=
  ⟨⟨taking_inv, _, rfl⟩, ⟨start_inv _, _, rfl⟩, ⟨start_inv _, _, rfl⟩, ⟨start_inv _, _, rfl⟩⟩

theorem test_witness_EventsOutsideTheirConditionsAreRefused :
    (start.setRx start.rx.disarm).rx.armed = false ∧
    (let s := (receiving 7).setUp ⟨false, true⟩;
      s.rx.armed = true ∧ s.rx.state = .accumulating ∧ s.rx.index = 7 ∧ s.rx.buf[0] = s.params.startMarker ∧
      (0x55 : Byte) = s.params.endMarker ∧ s.up.fifo = false) ∧
    (start.setUp ⟨true, false⟩).up.cap = false ∧ validate pwmFrame = true ∧
    channelIndex start.params pwmFrame.channel = some 0 ∧ start.up.cap = true ∧ 65536 > start.params.counterMax := by decide

theorem test_witness_PingAnswersTheVersion : validate pingFrame = true := by decide

theorem test_witness_GetPwmInputAnswersTheDuty :
    validate pwmFrame = true ∧ sampled.up.cap = true ∧ channelIndex sampled.params pwmFrame.channel = some 0 ∧
    (0x31 : Byte) = (if sampled.params.getOkCommand = .channelCode then pwmFrame.channel else sampled.params.statusOk) ∧
    sampled.cap[0].sampleReady = true ∧ start.cap[0].sampleReady = false := by decide

theorem test_witness_GetCurrentAndTemperatureAnswerTheGetter :
    validate getFrame = true ∧ channelIndex start.params getFrame.channel = some 0 ∧
    (0x31 : Byte) = (if start.params.getOkCommand = .channelCode then getFrame.channel else start.params.statusOk) ∧
    start.sa.current[0] ≠ 0xFFFF#16 ∧ (start.setSa ⟨#v[0xFFFF, 0, 0], #v[0, 0, 0]⟩).sa.current[0] = 0xFFFF#16 ∧
    validate (wire 0xAA 0x01 0x31 0x03 0x00 0x00 0x33 0x55) = true := by decide

theorem test_witness_SetCurrentAndTemperatureAnswerTheSetter :
    validate setFrame = true ∧ channelIndex start.params setFrame.channel = some 0 ∧
    start.env.setterAnswers.head? = some (.stored #v[511, 0, 0] #v[0, 250, 0]) ∧
    (start.setEnv { start.env with setterAnswers := [.refused] }).env.setterAnswers.head? = some .refused ∧
    State.reset.env.setterAnswers.head? = none := by decide

theorem test_witness_UnroutedRequestsFail :
    validate (wire 0xAA 0x02 0x31 0x01 0x32 0x00 0x00 0x55) = true ∧ channelIndex start.params 0x31 = some 0 := by decide

theorem test_witness_WrongChecksumFailsFirst :
    requestFrame (.getCurrent wrongFrame) = some wrongFrame ∧ validate wrongFrame = false := by decide

theorem test_witness_GetOrSetOfNoChannelFails :
    requestFrame (.getCurrent strayFrame) = some strayFrame ∧ Instr.getCurrent strayFrame ≠ .ping strayFrame ∧
    Instr.getCurrent strayFrame ≠ .unknownCmd strayFrame ∧ validate strayFrame = true ∧
    channelIndex start.params strayFrame.channel = none := by decide

theorem test_witness_EveryRequestIsAnsweredExactlyOnce :
    requestFrame (.setCurrent setFrame) = some setFrame ∧ start.up.cap = true := by decide

theorem test_witness_ErrorPathsHaveNoSideEffect :
    requestFrame (.getPwmInput pwmFrame) = some pwmFrame ∧
    (∃ t, exec (.getPwmInput pwmFrame) start = .next t ∧ t.trace = start.trace ++ t.trace ∧
      .errReport .unreadableSample (.frame pwmFrame) ∈ t.trace) ∧
    ErrorKind.unreadableSample ≠ .transmitTimeout :=
  ⟨rfl, ⟨_, rfl, rfl, by decide⟩, by decide⟩

theorem test_witness_ServiceIgnoresReceiverAndRingBuffer :
    requestFrame (.setCurrent setFrame) = some setFrame ∧ ∃ t, exec (.setCurrent setFrame) start = .next t :=
  ⟨rfl, _, rfl⟩

theorem test_witness_ResponseRowsTransmitOneFrame :
    (0x31 : Byte) = (if start.params.getOkCommand = .channelCode then 0x31 else start.params.statusOk) := by decide

theorem test_witness_GetAfterSetAnswersTheStoredValue :
    (511#16).toNat = (#v[(511 : Fin 1024), 0, 0])[0].val ∧ validate setFrame = true ∧ validate getFrame = true ∧
    channelIndex start.params setFrame.channel = some 0 ∧ channelIndex start.params getFrame.channel = some 0 ∧
    nextSetterAnswer .current 0 setFrame.value start = .stored #v[511, 0, 0] #v[0, 250, 0] ∧
    (∃ t, exec (.setCurrent setFrame) start = .next t) ∧
    (0x31 : Byte) = (if start.params.getOkCommand = .channelCode then getFrame.channel else start.params.statusOk) :=
  ⟨by decide, by decide, by decide, by decide, by decide, rfl, ⟨_, rfl⟩, by decide⟩

theorem test_witness_EveryStepKeepsTheInvariant :
    (coming [.event ⟨.rxByte, [0xAA]⟩]).Inv ∧ ∃ t, step (coming [.event ⟨.rxByte, [0xAA]⟩]) = .next t :=
  ⟨start_inv _, _, rfl⟩

theorem test_witness_NoFatalCondition :
    (coming []).Inv ∧ (coming []).env.inbox = [] ∧ (coming [.turn]).Inv ∧ (coming [.turn]).env.inbox = .turn :: [] ∧
    (coming [.event ⟨.rxByte, [0xAA]⟩]).Inv ∧
    (coming [.event ⟨.rxByte, [0xAA]⟩]).env.inbox = .event ⟨.rxByte, [0xAA]⟩ :: [] ∧
    (coming [.event ⟨.capEdge, [2, 0xFF, 0xFF]⟩]).Inv ∧
    decode (coming [.event ⟨.capEdge, [2, 0xFF, 0xFF]⟩]).params ⟨.capEdge, [2, 0xFF, 0xFF]⟩ = .ok (.edge 2 65535) ∧
    65535 ≤ start.params.counterMax :=
  ⟨start_inv _, rfl, start_inv _, rfl, start_inv _, rfl, start_inv _, by decide, by decide⟩

theorem test_witness_DrainAnswersEveryFrame : taking.Inv ∧ taking.env.inbox = [] := ⟨taking_inv, rfl⟩

/-- A byte that completes a malformed group, the service of a frame, an operation and a response row from the inbox. -/
theorem test_witness_TransmitsOnlyInAnswer :
    (∃ t, step ((receiving 7).setInbox [.event ⟨.rxByte, [0x54]⟩]) = .next t) ∧
    (∃ t, step (inPhase .service (some pingFrame)) = .next t) ∧
    (∃ t, step (coming [.event ⟨.cksum, [0x02, 0x31, 0x02, 0x40, 0x74]⟩]) = .next t) ∧
    (∃ t, step (coming [.event (encode Params.reference .rspPingOk)]) = .next t) :=
  ⟨⟨_, rfl⟩, ⟨_, rfl⟩, ⟨_, rfl⟩, ⟨_, rfl⟩⟩

theorem test_witness_BringUpReachesTheResetTable :
    (inPhase .service (some setFrame)).cons.phase.insideDequeue = false ∧
    (start.setEnv { start.env with counterMax := 1 }).env.counterMax ≥ 1 := by decide

theorem test_witness_ParametersAreFixed :
    (∃ t, exec .initCapture start = .next t) ∧ (∃ t, exec .dequeue start = .next t) ∧ Instr.dequeue ≠ .initCapture :=
  ⟨⟨_, rfl⟩, ⟨_, rfl⟩, by decide⟩

theorem test_witness_QuiescentMachineWaits :
    start.params.valid = true ∧ start.up.fifo = true ∧ start.env.inbox = [] ∧ start.cons.phase = .idle ∧
    start.fifo.count = 0 := by decide

theorem test_witness_CorruptedFrameIsAnsweredWithError :
    (let s := coming ((encodeFrame Params.reference wrongFrame).toList.map fun b => .event ⟨.rxByte, [b]⟩);
      s.Inv ∧ s.rx.state = .awaitingStart ∧ s.fifo.count = 0 ∧ s.cons.phase = .idle ∧
      markersValid s.params wrongFrame = true ∧ validate wrongFrame = false ∧
      s.env.inbox = (encodeFrame s.params wrongFrame).toList.map (fun b => .event ⟨.rxByte, [b]⟩)) :=
  ⟨start_inv _, rfl, rfl, rfl, by decide, by decide, rfl⟩

end Sys2Proof.Tests
end

section
/-! SUPPORT. What is fetched when an event is at the head of the inbox, and the step that runs it. -/

namespace Sys2Proof.Machine

/-- An event that decodes is fetched as its instruction, with the rest of the inbox left (R14, R69). -/
theorem fetch_event {s : State} {w : PortWord} {rest : List InboxItem} {i : Instr}
    (hin : s.env.inbox = .event w :: rest) (hdec : decode s.params w = .ok i) :
    fetch s = .run i (s.setInbox rest) := by
  simp only [fetch, hin, hdec]

/-- Under valid parameters a step runs what is fetched (R69). -/
theorem step_of_valid {s : State} (hp : s.params.valid = true) : step s = runFetched (fetch s) :=
  if_pos hp

/-- Settles O7: the event is fetched as `i` in the state with the rest of the inbox, and a fetched instruction is run by
`exec`. -/
theorem stepRunsTheDecodedEvent : Obligations.StepRunsTheDecodedEvent := by
  intro s w rest i hp hin hdec
  calc step s = runFetched (fetch s) := step_of_valid hp
    _ = runFetched (.run i (s.setInbox rest)) := by rw [fetch_event hin hdec]
    _ = exec i { s with env := { s.env with inbox := rest } } := rfl

end Sys2Proof.Machine
end

section
/-! SUPPORT. The registers a step leaves alone: a response, a report, a returned result and a draw of the environment
change no register of the block. -/

namespace Sys2Proof.Machine

/-- `t` is `s` but for the environment's coming choices, the result last returned and the outputs. -/
def SameRegisters (s t : State) : Prop :=
  ∃ e r o, t = { s with env := e, reply := r, trace := o }

namespace SameRegisters

variable {s t u : State}

theorem refl (s : State) : SameRegisters s s := ⟨_, _, _, rfl⟩

theorem trans (h : SameRegisters s t) (k : SameRegisters t u) : SameRegisters s u := by
  obtain ⟨_, _, _, rfl⟩ := h
  obtain ⟨_, _, _, rfl⟩ := k
  exact ⟨_, _, _, rfl⟩

theorem params (h : SameRegisters s t) : t.params = s.params := by obtain ⟨_, _, _, rfl⟩ := h; rfl
theorem fifo (h : SameRegisters s t) : t.fifo = s.fifo := by obtain ⟨_, _, _, rfl⟩ := h; rfl
theorem cap (h : SameRegisters s t) : t.cap = s.cap := by obtain ⟨_, _, _, rfl⟩ := h; rfl
theorem cons (h : SameRegisters s t) : t.cons = s.cons := by obtain ⟨_, _, _, rfl⟩ := h; rfl

/-- The queued frames are a function of the registers. -/
theorem queued (h : SameRegisters s t) : t.queued = s.queued := by obtain ⟨_, _, _, rfl⟩ := h; rfl

/-- The invariant speaks of the registers only. -/
theorem inv (h : SameRegisters s t) (hi : s.Inv) : t.Inv := by
  obtain ⟨_, _, _, rfl⟩ := h
  exact ⟨hi.params, hi.fifoUp, hi.capUp, hi.armed, hi.rx, hi.fifo, hi.cons, hi.cap, hi.sa⟩

end SameRegisters

theorem sameRegisters_emit (o : Output) (s : State) : SameRegisters s (s.emit o) := ⟨_, _, _, rfl⟩
theorem sameRegisters_setReply (r : Reply) (s : State) : SameRegisters s (s.setReply r) := ⟨_, _, _, rfl⟩
theorem sameRegisters_setEnv (e : Environment) (s : State) : SameRegisters s (s.setEnv e) := ⟨_, _, _, rfl⟩
theorem sameRegisters_setInbox (l : List InboxItem) (s : State) : SameRegisters s (s.setInbox l) := ⟨_, _, _, rfl⟩
theorem sameRegisters_respond (r : Frame) (s : State) : SameRegisters s (respond r s) := ⟨_, _, _, respond_eq r s⟩

theorem sameRegisters_failRequest (k : ErrorKind) (f : Frame) (s : State) : SameRegisters s (failRequest k f s) :=
  ⟨_, _, _, failRequest_eq k f s⟩

/-- Taking the next turn from the inbox changes no register. -/
theorem Turn.sameRegisters {s u : State} (h : Turn s u) : SameRegisters s u := by
  cases h with
  | idle         => exact .refl s
  | given rest _ => exact sameRegisters_setInbox rest s

end Sys2Proof.Machine
end

section
/-! SUPPORT. What every instruction does to the registers, said once for all 31: the statements about every instruction
or every step are case distinctions on `Effect`. -/

namespace Sys2Proof.Machine

/-- The two instructions that take the sample of channel `c`: SAMPLE_TAKE of it, and a GET of PWM-input whose channel byte
names it (R209, R245). -/
def TakesSample (i : Instr) (s : State) (c : ChannelIndex) : Prop :=
  i = .sampleTake c ∨ ∃ f, i = .getPwmInput f ∧ channelIndex s.params f.channel = some c

/-- What a request, a response row, SAMPLE_TAKE or a combinational operation does to the registers. -/
inductive ConsumerEffect (i : Instr) (s t : State) : Prop where
  /-- Nothing. -/
  | quiet (h : SameRegisters s t)
  /-- The flag of one channel is cleared (R209). -/
  | sampleTaken (c : ChannelIndex) (hi : TakesSample i s c)
      (h : SameRegisters (s.setCap c { s.cap[c] with sampleReady := false }) t)
  /-- A setter of Signal Access stored PWM values (R259). -/
  | setterStored (current temperature : Vector (Fin 1024) 3)
      (h : SameRegisters (s.setSa (.ofPwm current temperature)) t)

/-- What RX_BYTE or INIT_RX leaves in `rx.*` (R131 to R134, R138, R142). -/
inductive ReceiverMove (p : Params) (r : Receiver) : Receiver → Prop where
  /-- A byte outside a frame. -/
  | discarded (hs : r.state = .awaitingStart) : ReceiverMove p r ⟨.awaitingStart, r.index, r.buf, true⟩
  /-- The start marker. -/
  | begun : ReceiverMove p r ⟨.accumulating, 1, r.buf.set 0 p.startMarker, true⟩
  /-- A byte inside a frame. -/
  | stored (b : Byte) (hs : r.state = .accumulating) (hi : r.index ≤ 6) :
      ReceiverMove p r ⟨.accumulating, r.index + 1, r.buf.set r.index b, true⟩
  /-- The end of a group of eight, or INIT_RX. -/
  | ended (buf : Bytes8) : ReceiverMove p r ⟨.awaitingStart, 0, buf, true⟩

/-- What an instruction that completes does to the registers. -/
inductive Effect (i : Instr) (s t : State) : Prop where
  | consumer (h : ConsumerEffect i s t)
  | received (r : Receiver) (hr : ReceiverMove s.params s.rx r) (h : SameRegisters (s.setRx r) t)
  /-- ENQUEUE below 16 frames (R160). -/
  | queued (f : Frame) (hc : s.fifo.count ≠ 16) (h : SameRegisters (s.setFifo (s.fifo.push f)) t)
  /-- The eighth byte of a group, with its ENQUEUE (R136). -/
  | delivered (r : Receiver) (hr : ReceiverMove s.params s.rx r) (f : Frame) (hc : s.fifo.count ≠ 16)
      (h : SameRegisters ((s.setRx r).setFifo (s.fifo.push f)) t)
  /-- A micro-step of DEQUEUE (R165). -/
  | dequeued (h : execDequeue s = .next t)
  | edge (c : ChannelIndex) (ts : Nat) (hi : i = .edge c ts) (hts : ts ≤ s.params.counterMax)
      (h : t = s.setCap c (s.cap[c].edge s.params ts))
  | fifoReset (hi : i = .initFifo) (hp : s.cons.phase.insideDequeue = false)
      (h : t = (s.setFifo RingBuffer.reset).setUp { s.up with fifo := true })
  | captureReset (hi : i = .initCapture) (hm : s.env.counterMax ≠ 0)
      (h : t = { s with cap    := .replicate 3 CapChannel.reset
                        params := { s.params with counterMax := s.env.counterMax }
                        up     := { s.up with cap := true } })

/-- A request answers or fails; before that it has at most taken a sample or called Signal Access. -/
theorem request_consumerEffect {i : Instr} {f : Frame} {s t : State} (hf : requestFrame i = some f)
    (h : exec i s = .next t) : ConsumerEffect i s t := by
  obtain ⟨r, u, rfl, hu⟩ | ⟨k, u, rfl, hu⟩ := request_cases hf h
  · have answered := sameRegisters_respond r u
    obtain rfl | ⟨c, hi, hc, -, rfl⟩ | ⟨q, c, rfl⟩ | ⟨q, c, current, temperature, rfl⟩ := hu
    · exact .quiet answered
    · exact .sampleTaken c (.inr ⟨f, hi, hc⟩) answered
    · exact .quiet ((sameRegisters_emit _ s).trans answered)
    · exact .setterStored current temperature (SameRegisters.trans ⟨_, _, _, rfl⟩ answered)
  · have failed := sameRegisters_failRequest k f u
    obtain rfl | ⟨q, c, rfl⟩ | ⟨q, c, rfl⟩ := hu
    · exact .quiet failed
    · exact .quiet ((sameRegisters_emit _ s).trans failed)
    · exact .quiet (((sameRegisters_setEnv _ s).trans (sameRegisters_emit _ _)).trans failed)

/-- A received byte moves the receiver, and the eighth byte of a good group is queued besides. -/
theorem rxByte_effect {i : Instr} {b : Byte} {s t : State} (h : execRxByte b s = .next t) : Effect i s t := by
  obtain ⟨-, u, rfl, hu⟩ := execRxByte_cases h
  obtain ⟨hs, -, rfl⟩ | ⟨-, rfl, rfl⟩ | ⟨hi, hs, rfl⟩ | ⟨-, -, v, hv, rfl⟩ := hu
  · refine .received _ (.discarded hs) ?_
    rw [← hs]
    exact ⟨_, _, _, rfl⟩
  · exact .received _ .begun ⟨_, _, _, rfl⟩
  · exact .received _ (.stored b hs hi) ⟨_, _, _, rfl⟩
  · obtain ⟨-, -, hc, rfl⟩ | ⟨-, -, -, rfl⟩ | ⟨-, rfl⟩ := completeFrame_cases hv
    · exact .delivered _ (.ended (s.rx.buf.set 7 b)) _ hc ⟨_, _, _, rfl⟩
    all_goals
      refine .received _ (.ended (s.rx.buf.set 7 b)) ?_
      refine SameRegisters.trans ?_ (sameRegisters_emit _ _)
      rw [failReception_eq]
      exact ⟨_, _, _, rfl⟩

/-- Every instruction that completes has one of the effects listed. -/
theorem exec_effect {i : Instr} {s t : State} (h : exec i s = .next t) : Effect i s t := by
  have answered : ∀ {r}, Host.Outcome.next (respond r s) = (.next t : Result) → Effect i s t :=
    fun e => .consumer (.quiet (Host.Outcome.next.inj e ▸ sameRegisters_respond _ s))
  have replied : ∀ {r}, Host.Outcome.next (s.setReply r) = (.next t : Result) → Effect i s t :=
    fun e => .consumer (.quiet (Host.Outcome.next.inj e ▸ sameRegisters_setReply _ s))
  cases i with
  | ping | getPwmInput | getCurrent | getTemperature | setCurrent | setTemperature | setPwmInput | getOther | setOther
  | unknownCmd => exact .consumer (request_consumerEffect rfl h)
  | rspGetOk | rspSetOk | rspPingOk | rspError | rspIsrError => exact answered h
  | cksum | validate | markersValid | frameValid | encodeFrame | decodeFrame | duty => exact replied h
  | wrapsub a b =>
    simp only [exec, execWrapsub] at h
    split_ifs at h
    exact replied h
  | sampleTake c =>
    obtain ⟨-, rfl⟩ := execSampleTake_next.1 h
    exact .consumer (.sampleTaken c (.inl rfl) (sameRegisters_setReply _ _))
  | rxByte b => exact rxByte_effect h
  | enqueue f =>
    obtain ⟨-, ⟨hc, rfl⟩ | ⟨-, rfl⟩⟩ := execEnqueue_cases h
    · exact .queued f hc (sameRegisters_setReply _ _)
    · exact .consumer (.quiet (sameRegisters_setReply _ _))
  | dequeue => exact .dequeued h
  | edge c ts =>
    obtain ⟨-, hts, e⟩ := execEdge_next.1 h
    exact .edge c ts rfl hts e
  | initRx =>
    obtain rfl := Host.Outcome.next.inj h
    exact .received _ (.ended (.replicate 8 0)) ⟨_, _, _, rfl⟩
  | initFifo =>
    obtain ⟨hp, e⟩ := execInitFifo_next.1 h
    exact .fifoReset rfl hp e
  | initCapture =>
    obtain ⟨hm, e⟩ := execInitCapture_next.1 h
    exact .captureReset rfl hm e

namespace ConsumerEffect

variable {i : Instr} {s t : State}

theorem params (h : ConsumerEffect i s t) : t.params = s.params := by
  cases h with
  | quiet h | sampleTaken _ _ h | setterStored _ _ h => exact h.params

theorem cons (h : ConsumerEffect i s t) : t.cons = s.cons := by
  cases h with
  | quiet h | sampleTaken _ _ h | setterStored _ _ h => exact h.cons

theorem queued (h : ConsumerEffect i s t) : t.queued = s.queued := by
  cases h with
  | quiet h | sampleTaken _ _ h | setterStored _ _ h => exact h.queued

end ConsumerEffect

/-- A micro-step of DEQUEUE touches neither the parameters nor a capture channel (R165). -/
theorem execDequeue_params_cap {s t : State} (h : execDequeue s = .next t) : t.params = s.params ∧ t.cap = s.cap := by
  obtain ⟨-, ⟨-, -, rfl⟩ | ⟨-, -, rfl⟩ | ⟨-, rfl⟩ | ⟨-, rfl⟩ | ⟨-, rfl⟩⟩ := execDequeue_cases h <;>
    exact ⟨rfl, rfl⟩

/-- The row a frame selects carries that frame (R99). -/
theorem requestFrame_requestOf (p : Params) (f : Frame) : requestFrame (requestOf p f) = some f := by
  unfold requestOf
  split_ifs <;> rfl

end Sys2Proof.Machine
end

section
/-! SUPPORT. One rule per operation on the registers: it keeps the invariant between steps. -/

namespace Sys2Proof.Machine

/-! ### The ring buffer -/

theorem push_slotRead_tail (q : RingBuffer) (f : Frame) : (q.push f).slotRead q.tail = f :=
  slotRead_slotWrite_self q q.tail f

theorem push_slotRead_ne (q : RingBuffer) (f : Frame) {i : SlotIndex} (h : q.tail ≠ i) :
    (q.push f).slotRead i = q.slotRead i :=
  slotRead_slotWrite_ne q f h

/-- Queueing behind `n < 16` frames, with the tail where R29 puts it, adds the new frame at the end. -/
theorem slotsFrom_push (q : RingBuffer) (f : Frame) {n : Nat} (hn : n < 16)
    (ht : q.tail.val = (q.head.val + n) % 16) :
    (q.push f).slotsFrom q.head (n + 1) = q.slotsFrom q.head n ++ [f] := by
  have htail : (⟨(q.head.val + n) % 16, by omega⟩ : SlotIndex) = q.tail := Fin.ext ht.symm
  have older : (q.push f).slotsFrom q.head n = q.slotsFrom q.head n := by
    refine slotsFrom_congr _ _ _ _ fun k hk => push_slotRead_ne q f (Fin.ne_of_val_ne ?_)
    simp only
    omega
  rw [slotsFrom_snoc, older, htail, push_slotRead_tail]

variable {s : State}

/-- Queueing a frame below 16, whatever the consumer is doing, adds it at the end of the queue (R29, R168). -/
theorem queued_push (h : s.fifoInv) (hc : s.fifo.count ≠ 16) (f : Frame) :
    (s.setFifo (s.fifo.push f)).queued = s.queued ++ [f] := by
  obtain ⟨hle, hpos, ht⟩ := h
  unfold State.queued
  by_cases hp : s.cons.phase = .deq4
  · have h1 : 1 ≤ s.fifo.count := hpos (by rw [hp]; rfl)
    simp only [hp, if_true] at ht
    have hn : s.fifo.count + 1 - 1 = (s.fifo.count - 1) + 1 := by omega
    simpa [hp, hn] using slotsFrom_push s.fifo f (by omega) ht
  · simp only [hp, if_false] at ht
    simpa [hp] using slotsFrom_push s.fifo f (by omega) ht

/-- A change of `fifo.*`, `cons.*` and the reply keeps the invariant when it keeps what the invariant says of these. -/
theorem inv_of_fifo_cons {t : State} (h : s.Inv) (ht : t = { s with fifo := t.fifo, cons := t.cons, reply := t.reply })
    (hf : t.fifoInv) (hk : t.consInv) : t.Inv := by
  rw [ht] at hf hk ⊢
  exact ⟨h.params, h.fifoUp, h.capUp, h.armed, h.rx, hf, hk, h.cap, h.sa⟩

/-! What the invariant says of the consumer's copy, phase by phase (R39, R165). -/

theorem consInv_none (hp : s.cons.phase = .idle ∨ s.cons.phase = .deq1 ∨ s.cons.phase = .deq2) :
    s.consInv ↔ s.cons.frame = none := by
  obtain hp | hp | hp := hp <;> simp only [State.consInv, hp]

theorem consInv_deq3 (hp : s.cons.phase = .deq3) :
    s.consInv ↔ s.cons.frame = some (s.fifo.slotRead s.fifo.head) := by
  simp only [State.consInv, hp]

theorem consInv_deq4 (hp : s.cons.phase = .deq4) :
    s.consInv ↔ s.cons.frame = some (s.fifo.slotRead ⟨(s.fifo.head.val + 15) % 16, by omega⟩) := by
  simp only [State.consInv, hp]

theorem consInv_service (hp : s.cons.phase = .service) : s.consInv ↔ s.cons.frame.isSome = true := by
  simp only [State.consInv, hp]

/-- A queue that keeps the slot the consumer is taking or has taken keeps what the invariant says of the copy. -/
theorem consInv_setFifo (h : s.consInv) {q : RingBuffer}
    (h3 : s.cons.phase = .deq3 → q.slotRead q.head = s.fifo.slotRead s.fifo.head)
    (h4 : s.cons.phase = .deq4 → q.slotRead ⟨(q.head.val + 15) % 16, by omega⟩ =
      s.fifo.slotRead ⟨(s.fifo.head.val + 15) % 16, by omega⟩) :
    (s.setFifo q).consInv := by
  have none_kept (hp : s.cons.phase = .idle ∨ s.cons.phase = .deq1 ∨ s.cons.phase = .deq2) : (s.setFifo q).consInv :=
    (consInv_none (s := s.setFifo q) hp).2 ((consInv_none hp).1 h)
  cases hp : s.cons.phase with
  | idle    => exact none_kept (.inl hp)
  | deq1    => exact none_kept (.inr (.inl hp))
  | deq2    => exact none_kept (.inr (.inr hp))
  | deq3    => exact (consInv_deq3 (s := s.setFifo q) hp).2 (((consInv_deq3 hp).1 h).trans (congrArg some (h3 hp).symm))
  | deq4    => exact (consInv_deq4 (s := s.setFifo q) hp).2 (((consInv_deq4 hp).1 h).trans (congrArg some (h4 hp).symm))
  | service => exact (consInv_service (s := s.setFifo q) hp).2 ((consInv_service hp).1 h)

/-- ENQUEUE below 16 frames keeps the count and the tail right, and does not overwrite the frame a DEQUEUE is taking
(R170 (a)). -/
theorem inv_push (h : s.Inv) (hc : s.fifo.count ≠ 16) (f : Frame) : (s.setFifo (s.fifo.push f)).Inv := by
  obtain ⟨hle, hpos, ht⟩ := h.fifo
  refine inv_of_fifo_cons h rfl ⟨?_, fun _ => ?_, ?_⟩ (consInv_setFifo h.cons (fun hp => ?_) fun hp => ?_)
  · simp only [setFifo_fifo, push_count]; omega
  · simp only [setFifo_fifo, push_count]; omega
  · by_cases hp : s.cons.phase = .deq4
    · have h1 : 1 ≤ s.fifo.count := hpos (by rw [hp]; rfl)
      simp only [hp, if_true, setFifo_cons, setFifo_fifo, push_tail, push_head, push_count, advance_val] at ht ⊢
      omega
    · simp only [hp, if_false, setFifo_cons, setFifo_fifo, push_tail, push_head, push_count, advance_val] at ht ⊢
      omega
  · have h1 : 1 ≤ s.fifo.count := hpos (by rw [hp]; rfl)
    simp only [hp, reduceCtorEq, if_false] at ht
    exact push_slotRead_ne _ _ (Fin.ne_of_val_ne (by simp only [push_head]; omega))
  · have h1 : 1 ≤ s.fifo.count := hpos (by rw [hp]; rfl)
    simp only [hp, if_true] at ht
    exact push_slotRead_ne _ _ (Fin.ne_of_val_ne (by simp only [push_head]; omega))

/-- Every micro-step of DEQUEUE keeps the invariant (R165). -/
theorem inv_execDequeue {t : State} (h : s.Inv) (hd : execDequeue s = .next t) : t.Inv := by
  obtain ⟨hle, hpos, ht⟩ := h.fifo
  obtain ⟨-, ⟨hp, hc, rfl⟩ | ⟨hp, hc, rfl⟩ | ⟨hp, rfl⟩ | ⟨hp, rfl⟩ | ⟨hp, rfl⟩⟩ := execDequeue_cases hd
  · have hfr : s.cons.frame = none := (consInv_none (hp.imp_right .inl)).1 h.cons
    have hp4 : s.cons.phase ≠ .deq4 := by obtain hp | hp := hp <;> simp [hp]
    simp only [hp4, if_false] at ht
    exact inv_of_fifo_cons h rfl ⟨hle, nofun, ht⟩ hfr
  · have hfr : s.cons.frame = none := (consInv_none (hp.imp_right .inl)).1 h.cons
    have hp4 : s.cons.phase ≠ .deq4 := by obtain hp | hp := hp <;> simp [hp]
    simp only [hp4, if_false] at ht
    exact inv_of_fifo_cons h rfl ⟨hle, fun _ => Nat.one_le_iff_ne_zero.2 hc, ht⟩ hfr
  · simp only [hp, reduceCtorEq, if_false] at ht
    exact inv_of_fifo_cons h rfl ⟨hle, fun _ => hpos (by rw [hp]; rfl), ht⟩ rfl
  · have h1 : 1 ≤ s.fifo.count := hpos (by rw [hp]; rfl)
    simp only [hp, reduceCtorEq, if_false] at ht
    have hback : (⟨((advance s.fifo.head).val + 15) % 16, by omega⟩ : SlotIndex) = s.fifo.head :=
      Fin.ext (by simp only [advance_val]; omega)
    refine inv_of_fifo_cons h rfl ⟨hle, fun _ => h1, ?_⟩ ((consInv_deq4 rfl).2 ?_)
    · simp only [setCons_fifo, setCons_cons, setFifo_fifo, if_true, advance_val]
      omega
    · exact ((consInv_deq3 hp).1 h.cons).trans (congrArg some (congrArg s.fifo.slotRead hback.symm))
  · simp only [hp, if_true] at ht
    refine inv_of_fifo_cons h rfl ⟨le_trans (Nat.sub_le _ _) hle, nofun, ht⟩ ((consInv_service rfl).2 ?_)
    exact Option.isSome_of_eq_some ((consInv_deq4 hp).1 h.cons)

/-- INIT_FIFO outside a DEQUEUE (R173, U8). -/
theorem inv_fifoReset (h : s.Inv) (hp : s.cons.phase.insideDequeue = false) :
    ((s.setFifo RingBuffer.reset).setUp { s.up with fifo := true }).Inv := by
  have hcons : (s.setFifo RingBuffer.reset).consInv :=
    consInv_setFifo h.cons (fun h3 => by simp [h3, Phase.insideDequeue] at hp)
      fun h4 => by simp [h4, Phase.insideDequeue] at hp
  refine ⟨h.params, rfl, h.capUp, h.armed, h.rx, ⟨Nat.zero_le 16, fun hin => ?_, ?_⟩, hcons, h.cap, h.sa⟩
  · exact absurd (hp.symm.trans hin) Bool.false_ne_true
  · simp [RingBuffer.reset]

/-- The service of a frame is over (R261). -/
theorem inv_retire (h : s.Inv) (hp : s.cons.phase = .service) : (retire s).Inv := by
  obtain ⟨hle, hpos, ht⟩ := h.fifo
  simp only [hp] at ht
  exact inv_of_fifo_cons h rfl ⟨hle, nofun, ht⟩ rfl

/-! ### The receiver -/

theorem rxInv_awaitingStart (hs : s.rx.state = .awaitingStart) : s.rxInv ↔ s.rx.index = 0 := by
  simp [State.rxInv, hs]

theorem rxInv_accumulating (hs : s.rx.state = .accumulating) :
    s.rxInv ↔ 1 ≤ s.rx.index ∧ s.rx.index ≤ 7 ∧ s.rx.buf[0] = s.params.startMarker := by
  simp [State.rxInv, hs]

/-- RX_BYTE and INIT_RX leave the receiver armed, and awaiting a start or within a group that began with the start marker
(R21, R22, R132, R323). -/
theorem inv_setRx (h : s.Inv) {r : Receiver} (hr : ReceiverMove s.params s.rx r) : (s.setRx r).Inv := by
  have harmed : r.armed = true := by cases hr <;> rfl
  refine ⟨h.params, h.fifoUp, h.capUp, harmed, ?_, h.fifo, h.cons, h.cap, h.sa⟩
  cases hr with
  | discarded hs   => exact .inl ⟨rfl, (rxInv_awaitingStart hs).1 h.rx⟩
  | begun          => exact .inr ⟨rfl, by simp⟩
  | stored b hs hi =>
    obtain ⟨h1, -, hb⟩ := (rxInv_accumulating hs).1 h.rx
    have h0 : (s.rx.buf.set s.rx.index b)[0] = s.rx.buf[0] := Vector.getElem_set_ne _ _ (by omega)
    exact .inr ⟨rfl, Nat.le_add_left .., Nat.succ_le_succ hi, h0.trans hb⟩
  | ended buf      => exact .inl ⟨rfl, rfl⟩

/-! ### The capture channels -/

theorem capReset_inv (p : Params) : CapChannel.reset.inv p := by
  refine ⟨rfl, ?_, ?_, ?_, ?_, ?_⟩ <;> simp [CapChannel.reset]

/-- Replacing a channel by one that keeps the channel's invariant. -/
theorem inv_setCap (h : s.Inv) {c : ChannelIndex} {ch : CapChannel} (hch : ch.inv s.params) : (s.setCap c ch).Inv := by
  refine ⟨h.params, h.fifoUp, h.capUp, h.armed, h.rx, h.fifo, h.cons, fun d => ?_, h.sa⟩
  by_cases hd : c = d
  · subst hd
    rw [setCap_cap_self]
    exact hch
  · rw [setCap_cap_ne s ch hd]
    exact h.cap d

/-- Clearing the flag of a channel (R209). -/
theorem inv_clearSample (h : s.Inv) (c : ChannelIndex) : (s.setCap c { s.cap[c] with sampleReady := false }).Inv := by
  obtain ⟨hpol, hlast, hwidth, hperiod, hfall, hnone⟩ := h.cap c
  exact inv_setCap h ⟨hpol, hlast, hwidth, hperiod, hfall, fun hr => ⟨(hnone hr).1, rfl⟩⟩

/-- R9 outlives a new COUNTER_MAX above 0 (R9 (g), R210). -/
theorem valid_counterMax {p : Params} (h : p.valid = true) {n : Nat} (hn : n ≠ 0) :
    ({ p with counterMax := n } : Params).valid = true := by
  obtain ⟨hcmd, hsig, hstat, hch, hsys, hget, -⟩ := (valid_iff p).1 h
  exact (valid_iff _).2 ⟨hcmd, hsig, hstat, hch, hsys, hget, Nat.one_le_iff_ne_zero.2 hn⟩

/-- INIT_CAPTURE (R210). -/
theorem inv_captureReset (h : s.Inv) (hm : s.env.counterMax ≠ 0) :
    ({ s with cap    := .replicate 3 CapChannel.reset
              params := { s.params with counterMax := s.env.counterMax }
              up     := { s.up with cap := true } } : State).Inv := by
  refine ⟨valid_counterMax h.params hm, h.fifoUp, rfl, h.armed, h.rx, h.fifo, h.cons, fun c => ?_, h.sa⟩
  simpa using capReset_inv _

/-! ### Signal Access -/

/-- A setter stores PWM values (R259). -/
theorem inv_setSa (h : s.Inv) (current temperature : Vector (Fin 1024) 3) : (s.setSa (.ofPwm current temperature)).Inv :=
  ⟨h.params, h.fifoUp, h.capUp, h.armed, h.rx, h.fifo, h.cons, h.cap, ofPwm_inv current temperature⟩

/-! ### Every instruction -/

theorem ConsumerEffect.inv {i : Instr} {t : State} (h : s.Inv) (he : ConsumerEffect i s t) : t.Inv := by
  cases he with
  | quiet hsame               => exact hsame.inv h
  | sampleTaken c _ hsame     => exact hsame.inv (inv_clearSample h c)
  | setterStored _ _ hsame    => exact hsame.inv (inv_setSa h _ _)

/-- Every instruction that completes keeps the invariant. -/
theorem exec_inv {i : Instr} {t : State} (h : s.Inv) (hx : exec i s = .next t) : t.Inv := by
  cases exec_effect hx with
  | consumer he               => exact he.inv h
  | received r hr hsame       => exact hsame.inv (inv_setRx h hr)
  | queued f hc hsame         => exact hsame.inv (inv_push h hc f)
  | delivered r hr f hc hsame => exact hsame.inv (inv_push (inv_setRx h hr) hc f)
  | dequeued hd               => exact inv_execDequeue h hd
  | edge c ts _ hts e         => exact e ▸ inv_setCap h (edge_inv s.params hts (h.cap c))
  | fifoReset _ hp e          => exact e ▸ inv_fifoReset h hp
  | captureReset _ hm e       => exact e ▸ inv_captureReset h hm

/-- Settles O52: a step is an event, a micro-step of DEQUEUE or the service of a frame (`step_cases`); fetching changes no
register, every instruction keeps the invariant (`exec_inv`), and a service still has its phase when it retires. -/
theorem everyStepKeepsTheInvariant : Obligations.EveryStepKeepsTheInvariant := by
  intro s t h hstep
  obtain ⟨-, ⟨w, rest, i, -, -, hx⟩ | ⟨u, hu, -, hx⟩ | ⟨u, f, v, hu, hp, -, hx, rfl⟩⟩ := step_cases hstep
  · exact exec_inv ((sameRegisters_setInbox rest s).inv h) hx
  · exact exec_inv (hu.sameRegisters.inv h) hx
  · have hv : v.cons = u.cons := (request_consumerEffect (requestFrame_requestOf _ f) hx).cons
    exact inv_retire (exec_inv (hu.sameRegisters.inv h) hx) (hv ▸ hp)

end Sys2Proof.Machine
end

section
/-! SUPPORT. Every step seen through the queued frames: the ring buffer refines a bounded queue (R29, R168). -/

namespace Sys2Proof.Machine

variable {s t : State}

/-- What an operation does to the queued frames: nothing, one frame more at the end, below 16, or the oldest frame taken,
which is then the consumer's (R168). -/
inductive QueueMove (s t : State) : Prop where
  | kept (h : t.queued = s.queued)
  | added (f : Frame) (h : t.queued = s.queued ++ [f]) (hc : s.fifo.count < 16)
  | taken (f : Frame) (h : s.queued = f :: t.queued) (hk : t.cons = ⟨.deq4, some f⟩) (hp : s.cons.phase = .deq3)

/-- Outside Deq4 every counted frame is queued (R29). -/
theorem queued_of_ne_deq4 (hp : s.cons.phase ≠ .deq4) : s.queued = s.fifo.slotsFrom s.fifo.head s.fifo.count := by
  simp only [State.queued, hp, if_false]

/-- In Deq4 the count still holds the frame taken (R29). -/
theorem queued_of_deq4 (hp : s.cons.phase = .deq4) : s.queued = s.fifo.slotsFrom s.fifo.head (s.fifo.count - 1) := by
  simp only [State.queued, hp, if_true]

/-- The consumer's phase counts for the queue only in Deq4. -/
theorem queued_congr (hf : t.fifo = s.fifo) (hs : s.cons.phase ≠ .deq4) (ht : t.cons.phase ≠ .deq4) :
    t.queued = s.queued := by
  rw [queued_of_ne_deq4 hs, queued_of_ne_deq4 ht, hf]

/-- Of DEQUEUE's micro-steps only the advance of head, step 3, takes a frame out of the queue; the release, step 4, finds it
gone (R165, R168). -/
theorem execDequeue_queueMove (h : s.Inv) (hd : execDequeue s = .next t) : QueueMove s t := by
  obtain ⟨-, hinside, -⟩ := h.fifo
  obtain ⟨-, ⟨hp, -, rfl⟩ | ⟨hp, -, rfl⟩ | ⟨hp, rfl⟩ | ⟨hp, rfl⟩ | ⟨hp, rfl⟩⟩ := execDequeue_cases hd
  · exact .kept (queued_congr rfl (by obtain hp | hp := hp <;> simp [hp]) nofun)
  · exact .kept (queued_congr rfl (by obtain hp | hp := hp <;> simp [hp]) nofun)
  · exact .kept (queued_congr rfl (by simp [hp]) nofun)
  · have hpos : 1 ≤ s.fifo.count := hinside (by rw [hp]; rfl)
    obtain ⟨n, hn⟩ : ∃ n, s.fifo.count = n + 1 := ⟨s.fifo.count - 1, by omega⟩
    have hframe := (consInv_deq3 hp).1 h.cons
    refine .taken (s.fifo.slotRead s.fifo.head) ?_ ?_ hp
    · rw [queued_of_ne_deq4 (by simp [hp]), queued_of_deq4 rfl, hn, slotsFrom_cons]
      simp only [setCons_fifo, setFifo_fifo, hn, Nat.add_sub_cancel]
      rfl
    · exact congrArg (Consumer.mk .deq4) hframe
  · refine .kept ?_
    rw [queued_of_deq4 hp, queued_of_ne_deq4 (by simp)]
    rfl

/-- Every instruction but INIT_FIFO acts on the queued frames as on a bounded queue. -/
theorem exec_queueMove {i : Instr} (h : s.Inv) (hi : i ≠ .initFifo) (hx : exec i s = .next t) : QueueMove s t := by
  have below (hc : s.fifo.count ≠ 16) : s.fifo.count < 16 := lt_of_le_of_ne h.fifo.1 hc
  cases exec_effect hx with
  | consumer he               => exact .kept he.queued
  | received r _ hsame        => exact .kept hsame.queued
  | queued f hc hsame         => exact .added f (hsame.queued.trans (queued_push h.fifo hc f)) (below hc)
  | delivered r hr f hc hsame =>
    exact .added f (hsame.queued.trans (queued_push (inv_setRx h hr).fifo hc f)) (below hc)
  | dequeued hd               => exact execDequeue_queueMove h hd
  | edge c ts _ _ e           => exact .kept (e ▸ rfl)
  | fifoReset he _ _          => exact absurd he hi
  | captureReset _ _ e        => exact .kept (e ▸ rfl)

/-- The service of a frame ends with the queue as it is. -/
theorem queued_retire (hp : s.cons.phase = .service) : (retire s).queued = s.queued :=
  queued_congr rfl (by simp [hp]) nofun

/-- A move is the same seen from a state with the same registers. -/
theorem QueueMove.of_sameRegisters {u : State} (h : SameRegisters s u) (m : QueueMove u t) : QueueMove s t := by
  have hq := h.queued
  cases m with
  | kept e        => exact .kept (e.trans hq)
  | added f e hc  => exact .added f (by rw [e, hq]) (h.fifo ▸ hc)
  | taken f e k p => exact .taken f (hq ▸ e) k (h.cons ▸ p)

/-- A step is a move of a bounded queue, or INIT_FIFO, which comes only as an event. -/
theorem step_queueMove (h : s.Inv) (hstep : step s = .next t) :
    QueueMove s t ∨
    (t.queued = [] ∧ t.fifo.count = 0 ∧
      ∃ w rest, s.env.inbox = .event w :: rest ∧ decode s.params w = .ok .initFifo) := by
  obtain ⟨-, ⟨w, rest, i, hin, hdec, hx⟩ | ⟨u, hu, -, hx⟩ | ⟨u, f, v, hu, hp, -, hx, rfl⟩⟩ := step_cases hstep
  · have hsame := sameRegisters_setInbox rest s
    by_cases hi : i = .initFifo
    · subst hi
      obtain ⟨-, rfl⟩ := execInitFifo_next.1 hx
      exact .inr ⟨by simp [State.queued, RingBuffer.reset, RingBuffer.slotsFrom], rfl, w, rest, hin, hdec⟩
    · exact .inl ((exec_queueMove (hsame.inv h) hi hx).of_sameRegisters hsame)
  · exact .inl ((exec_queueMove (hu.sameRegisters.inv h) (by decide) hx).of_sameRegisters hu.sameRegisters)
  · have he := request_consumerEffect (requestFrame_requestOf _ f) hx
    have hv : v.cons.phase = .service := by rw [he.cons, hp]
    exact .inl (.kept ((queued_retire hv).trans (he.queued.trans hu.sameRegisters.queued)))

/-- Settles O37: the four cases are the three moves of a bounded queue and INIT_FIFO. -/
theorem ringBufferRefinesAQueue : Obligations.RingBufferRefinesAQueue := by
  intro s t h hstep
  obtain m | emptied := step_queueMove h hstep
  · cases m with
    | kept e        => exact .inl e
    | added f e hc  => exact .inr (.inl ⟨f, e, hc⟩)
    | taken f e k p => exact .inr (.inr (.inl ⟨f, e, k, p⟩))
  · exact .inr (.inr (.inr emptied))

end Sys2Proof.Machine
end

section
/-! SUPPORT. Who writes what: the capture channels, the parameters, and what RX_BYTE does not look at; the reset state. -/

namespace Sys2Proof.Machine

/-- Settles O22: of the effects an instruction can have, only the taking of a sample and an edge write a channel, and each
writes its own. -/
theorem captureChannelHasOneWriter : Obligations.CaptureChannelHasOneWriter := by
  intro i s t d hx hinit hedge
  have kept (h : t.cap = s.cap) : t.cap[d] = s.cap[d] := by rw [h]
  cases exec_effect hx with
  | consumer he =>
    cases he with
    | quiet h | setterStored _ _ h => exact .inl (kept h.cap)
    | sampleTaken c hi h =>
      by_cases hd : c = d
      · subst hd
        exact .inr ⟨by rw [h.cap, setCap_cap_self], hi⟩
      · exact .inl (by rw [h.cap, setCap_cap_ne s _ hd])
  | received _ _ h | queued _ _ h | delivered _ _ _ _ h => exact .inl (kept h.cap)
  | dequeued h => exact .inl (kept (execDequeue_params_cap h).2)
  | edge c ts hi _ e =>
    have hd : c ≠ d := fun hd => hedge ts (hd ▸ hi)
    exact .inl (by rw [e, setCap_cap_ne s _ hd])
  | fifoReset _ _ e => exact .inl (kept (e ▸ rfl))
  | captureReset hi => exact absurd hi hinit

/-- No instruction but INIT_CAPTURE changes a parameter (R40). -/
theorem exec_params {i : Instr} {s t : State} (hx : exec i s = .next t) (hi : i ≠ .initCapture) : t.params = s.params := by
  cases exec_effect hx with
  | consumer he => exact he.params
  | received _ _ h | queued _ _ h | delivered _ _ _ _ h => exact h.params
  | dequeued h => exact (execDequeue_params_cap h).1
  | edge _ _ _ _ e | fifoReset _ _ e => rw [e]; rfl
  | captureReset he => exact absurd he hi

/-- Settles O57: INIT_CAPTURE writes COUNTER_MAX and no other parameter, and every other instruction none. -/
theorem parametersAreFixed : Obligations.ParametersAreFixed := by
  intro i s t hx
  refine ⟨?_, exec_params hx⟩
  by_cases hi : i = .initCapture
  · subst hi
    obtain ⟨-, rfl⟩ := execInitCapture_next.1 hx
    rfl
  · rw [exec_params hx hi]

/-- Settles O51: the engines are up and armed, nothing is received, queued or measured, and Signal Access answers 0. -/
theorem resetKeepsTheInvariant : Obligations.ResetKeepsTheInvariant where
  params := by decide
  fifoUp := rfl
  capUp  := rfl
  armed  := rfl
  rx     := .inl ⟨rfl, rfl⟩
  fifo   := by decide
  cons   := rfl
  cap    := by decide
  sa     := by decide

/-! ### What RX_BYTE does not look at -/

/-- `s` with other capture channels, consumer, Signal Access and reply: what a received byte has nothing to do with (R44). -/
def State.withBystanders (k : Vector CapChannel 3) (z : Consumer) (a : SignalAccess) (r : Reply) (s : State) : State :=
  { s with cap := k, cons := z, sa := a, reply := r }

section
variable (k : Vector CapChannel 3) (z : Consumer) (a : SignalAccess) (r : Reply) (s : State)

@[simp] theorem withBystanders_params : (s.withBystanders k z a r).params = s.params := rfl
@[simp] theorem withBystanders_rx : (s.withBystanders k z a r).rx = s.rx := rfl
@[simp] theorem withBystanders_fifo : (s.withBystanders k z a r).fifo = s.fifo := rfl
@[simp] theorem withBystanders_up : (s.withBystanders k z a r).up = s.up := rfl

theorem setRx_withBystanders (x : Receiver) :
    (s.withBystanders k z a r).setRx x = (s.setRx x).withBystanders k z a r := rfl

theorem setFifo_withBystanders (q : RingBuffer) :
    (s.withBystanders k z a r).setFifo q = (s.setFifo q).withBystanders k z a r := rfl

theorem rearm_withBystanders : rearm (s.withBystanders k z a r) = (rearm s).withBystanders k z a r := rfl

theorem failReception_withBystanders (e : ErrorKind) :
    failReception e (s.withBystanders k z a r) = (failReception e s).withBystanders k z a r := by
  simp only [failReception_eq]
  rfl

theorem awaitByte_withBystanders (b : Byte) :
    awaitByte b (s.withBystanders k z a r) = (awaitByte b s).withBystanders k z a r := by
  by_cases hb : b = s.params.startMarker <;> simp [awaitByte, hb, setRx_withBystanders]

end

/-- A meaning that neither reads nor writes the bystanders: with others there it stops in the same way, or completes with
those others kept. -/
def IgnoresBystanders (m : State → Result) : Prop :=
  ∀ k z a r s, m (s.withBystanders k z a r) = andThen (m s) fun t => .next (t.withBystanders k z a r)

theorem ignoresBystanders_next {g : State → State}
    (h : ∀ k z a r s, g (s.withBystanders k z a r) = (g s).withBystanders k z a r) :
    IgnoresBystanders fun s => .next (g s) :=
  fun k z a r s => congrArg Host.Outcome.next (h k z a r s)

theorem ignoresBystanders_andThen {m n : State → Result} (hm : IgnoresBystanders m) (hn : IgnoresBystanders n) :
    IgnoresBystanders fun s => andThen (m s) n := by
  intro k z a r s
  simp only [hm k z a r s]
  cases m s with
  | next t    => exact hn k z a r t
  | fault e   => rfl
  | refused e => rfl

/-- The Complete processing reads the received bytes, the parameters and the ring buffer only (R135, R136, R137). -/
theorem completeFrame_ignoresBystanders : IgnoresBystanders completeFrame := by
  intro k z a r s
  by_cases hm : markersValid s.params (decodeFrame s.params s.rx.buf) = true
  · by_cases hu : s.up.fifo = true
    · by_cases hc : s.fifo.full = true <;>
        simp [completeFrame, tryEnqueue, hm, hu, hc, failReception_withBystanders, setFifo_withBystanders]
    · simp [completeFrame, hm, hu]
  · simp [completeFrame, hm, failReception_withBystanders]

/-- A byte inside a frame is stored, or ends the group (R133, R134). -/
theorem accumulateByte_ignoresBystanders (b : Byte) : IgnoresBystanders (accumulateByte b) := by
  intro k z a r s
  have ended : IgnoresBystanders fun s => andThen (completeFrame s) fun t => .next (t.setRx t.rx.awaitStart) :=
    ignoresBystanders_andThen completeFrame_ignoresBystanders (ignoresBystanders_next fun _ _ _ _ _ => rfl)
  unfold accumulateByte
  by_cases hi : s.rx.index ≤ 6
  · simp [hi, setRx_withBystanders]
  · by_cases h7 : s.rx.index = 7
    · simpa [hi, h7, setRx_withBystanders] using ended k z a r _
    · simp [hi, h7]

/-- The transition of R143 reads and writes the receiver's side only. -/
theorem receiveByte_ignoresBystanders (b : Byte) : IgnoresBystanders (receiveByte b) := by
  intro k z a r s
  unfold receiveByte
  cases hs : s.rx.state with
  | awaitingStart => simp [hs, awaitByte_withBystanders]
  | accumulating  => simpa [hs] using accumulateByte_ignoresBystanders b k z a r s
  | complete      => simp [hs]

/-- RX_BYTE neither reads nor writes the capture channels, the consumer, Signal Access or the reply (R44). -/
theorem execRxByte_ignoresBystanders (b : Byte) : IgnoresBystanders (execRxByte b) := by
  intro k z a r s
  have byte : IgnoresBystanders fun s => andThen (receiveByte b s) fun t => .next (rearm t) :=
    ignoresBystanders_andThen (receiveByte_ignoresBystanders b) (ignoresBystanders_next rearm_withBystanders)
  unfold execRxByte
  by_cases ha : s.rx.armed = true
  · simpa [ha, setRx_withBystanders] using byte k z a r (s.setRx s.rx.disarm)
  · simp [ha]

/-- Settles O31: RX_BYTE ignores the bystanders; that it keeps its own is the same fact with those it found in place. -/
theorem byteStepIgnoresCaptureAndConsumer : Obligations.ByteStepIgnoresCaptureAndConsumer := by
  intro s t b k z a r hx
  have swapped : ∀ k z a r, exec (.rxByte b) (s.withBystanders k z a r) = .next (t.withBystanders k z a r) := by
    intro k z a r
    have hx' : execRxByte b s = .next t := hx
    have h := execRxByte_ignoresBystanders b k z a r s
    rw [hx'] at h
    exact h
  have own : t = t.withBystanders s.cap s.cons s.sa s.reply :=
    Host.Outcome.next.inj (hx.symm.trans (swapped s.cap s.cons s.sa s.reply))
  refine ⟨swapped k z a r, ?_⟩
  rw [own]
  exact ⟨rfl, rfl, rfl, rfl⟩

end Sys2Proof.Machine
end

section
/-! SUPPORT. The value bytes on the wire: which of them stands at offset 4 and which at offset 5 (R62, R97). -/

namespace Sys2Proof

@[simp] theorem encodeFrame_four (p : Params) (f : Frame) : (encodeFrame p f)[4] = valueByte4 p f.value := rfl
@[simp] theorem encodeFrame_five (p : Params) (f : Frame) : (encodeFrame p f)[5] = valueByte5 p f.value := rfl

/-- The bytes at offsets 4 and 5 and the assembled value, low byte first (R62, R97). -/
theorem valueBytes_lowFirst {p : Params} (h : p.valueLowFirst = true) (v : U16) (b4 b5 : Byte) :
    valueByte4 p v = valueLow v ∧ valueByte5 p v = valueHigh v ∧ assembleValue p b4 b5 = joinBytes b5 b4 :=
  ⟨if_pos h, if_pos h, if_pos h⟩

/-- The same, high byte first: the two are exchanged. -/
theorem valueBytes_highFirst {p : Params} (h : p.valueLowFirst = false) (v : U16) (b4 b5 : Byte) :
    valueByte4 p v = valueHigh v ∧ valueByte5 p v = valueLow v ∧ assembleValue p b4 b5 = joinBytes b4 b5 := by
  simp [valueByte4, valueByte5, assembleValue, h]

/-- Settles O4: the byte order says which byte is the low one, and the low byte is the remainder modulo 256, the high byte the
quotient. -/
theorem valueBytesFollowByteOrder : Obligations.ValueBytesFollowByteOrder := by
  intro p f b4 b5
  constructor
  · intro h
    obtain ⟨h4, h5, hjoin⟩ := valueBytes_lowFirst h f.value b4 b5
    rw [encodeFrame_four, encodeFrame_five, h4, h5, hjoin]
    exact ⟨valueLow_toNat _, valueHigh_toNat _, joinBytes_toNat _ _⟩
  · intro h
    obtain ⟨h4, h5, hjoin⟩ := valueBytes_highFirst h f.value b4 b5
    rw [encodeFrame_four, encodeFrame_five, h4, h5, hjoin]
    exact ⟨valueHigh_toNat _, valueLow_toNat _, joinBytes_toNat _ _⟩

end Sys2Proof
end

section
/-! SUPPORT. The two interrupt steps, RX_BYTE and EDGE, do not meet: neither reads what the other writes (R44, R78). -/

namespace Sys2Proof.Machine

variable {s t : State}

theorem SameRegisters.up (h : SameRegisters s t) : t.up = s.up := by obtain ⟨_, _, _, rfl⟩ := h; rfl

/-- A request, a response row, SAMPLE_TAKE or a combinational operation initialises no engine. -/
theorem ConsumerEffect.up {i : Instr} (h : ConsumerEffect i s t) : t.up = s.up := by
  cases h with
  | quiet h | sampleTaken _ _ h | setterStored _ _ h => exact h.up

/-- Only INIT_FIFO and INIT_CAPTURE write the record of the engines that are up (R45). -/
theorem exec_up {i : Instr} (hx : exec i s = .next t) (hfifo : i ≠ .initFifo) (hcap : i ≠ .initCapture) :
    t.up = s.up := by
  cases exec_effect hx with
  | consumer he => exact he.up
  | received _ _ h | queued _ _ h | delivered _ _ _ _ h => exact h.up
  | dequeued h =>
    obtain ⟨-, ⟨-, -, rfl⟩ | ⟨-, -, rfl⟩ | ⟨-, rfl⟩ | ⟨-, rfl⟩ | ⟨-, rfl⟩⟩ := execDequeue_cases h <;> rfl
  | edge _ _ _ _ e => rw [e, setCap_up]
  | fifoReset hi => exact absurd hi hfifo
  | captureReset hi => exact absurd hi hcap

/-- A received byte and a write of a capture channel commute (R44): the capture channels are among the bystanders of
RX_BYTE. -/
theorem exec_rxByte_setCap {b : Byte} (hx : exec (.rxByte b) s = .next t) (c : ChannelIndex) (ch : CapChannel) :
    exec (.rxByte b) (s.setCap c ch) = .next (t.setCap c ch) := by
  obtain ⟨hswap, hcap, hcons, hsa, hreply⟩ :=
    byteStepIgnoresCaptureAndConsumer s t b (s.cap.set c ch) s.cons s.sa s.reply hx
  have hset : t.setCap c ch = { t with cap := s.cap.set c ch, cons := s.cons, sa := s.sa, reply := s.reply } := by
    rw [← hcap, ← hcons, ← hsa, ← hreply]
    rfl
  rw [hset]
  exact hswap

/-- Settles O18: EDGE is a write of its channel by a function of the channel and the parameters, which RX_BYTE keeps, and
RX_BYTE commutes with that write. -/
theorem byteAndEdgeStepsCommute : Obligations.ByteAndEdgeStepsCommute := by
  intro s t u b c ts hbyte hedge
  obtain ⟨hup, hts, rfl⟩ := execEdge_next.1 hedge
  obtain ⟨-, hcap, -, -, -⟩ := byteStepIgnoresCaptureAndConsumer s t b s.cap s.cons s.sa s.reply hbyte
  have hparams : t.params = s.params := exec_params hbyte nofun
  have hup' : t.up = s.up := exec_up hbyte nofun nofun
  refine ⟨t.setCap c (s.cap[c].edge s.params ts), execEdge_next.2 ⟨?_, ?_, ?_⟩, exec_rxByte_setCap hbyte c _⟩
  · rw [hup', hup]
  · rw [hparams]
    exact hts
  · rw [hcap, hparams]

end Sys2Proof.Machine
end

section
/-! SUPPORT. The request map (R99): under R9 the commands and the signals differ, so a frame meets the condition of one row
only, and that is the row `requestOf` selects. -/

namespace Sys2Proof.Machine

variable {p : Params} {f : Frame}

theorem requestOf_ping (h : f.command = p.cmdPing) : requestOf p f = .ping f := if_pos h

/-- A GET is told apart by its signal. -/
theorem requestOf_get (hp : p.valid = true) (h : f.command = p.cmdGet) :
    requestOf p f =
      if f.signal = p.sigPwmInput then .getPwmInput f
      else if f.signal = p.sigCurrent then .getCurrent f
      else if f.signal = p.sigTemperature then .getTemperature f
      else .getOther f := by
  obtain ⟨⟨-, hgp, -⟩, -⟩ := (valid_iff p).1 hp
  simp [requestOf, h, hgp]

/-- A SET is told apart by its signal. -/
theorem requestOf_set (hp : p.valid = true) (h : f.command = p.cmdSet) :
    requestOf p f =
      if f.signal = p.sigCurrent then .setCurrent f
      else if f.signal = p.sigTemperature then .setTemperature f
      else if f.signal = p.sigPwmInput then .setPwmInput f
      else .setOther f := by
  obtain ⟨⟨hgs, -, hsp⟩, -⟩ := (valid_iff p).1 hp
  simp [requestOf, h, hgs.symm, hsp]

theorem requestOf_unknown (hg : f.command ≠ p.cmdGet) (hs : f.command ≠ p.cmdSet) (hp : f.command ≠ p.cmdPing) :
    requestOf p f = .unknownCmd f := by
  simp [requestOf, hg, hs, hp]

/-- A frame meets the condition of the row it selects. -/
theorem rowHolds_requestOf (p : Params) (f : Frame) : (requestOf p f).rowHolds p = true := by
  unfold requestOf
  split_ifs <;> simp_all [Instr.rowHolds]

/-- A frame that meets the condition of a row selects that row: the conditions of two rows exclude each other. -/
theorem requestOf_of_rowHolds {i : Instr} (hp : p.valid = true) (hf : requestFrame i = some f)
    (hrow : i.rowHolds p = true) : requestOf p f = i := by
  obtain ⟨-, ⟨hpc, hpt, -, hct, -, -⟩, -⟩ := (valid_iff p).1 hp
  cases i <;> simp only [requestFrame, Option.some.injEq, reduceCtorEq] at hf <;> subst hf <;>
    simp only [Instr.rowHolds, Bool.and_eq_true, Bool.not_eq_true', Bool.or_eq_false_iff, beq_iff_eq,
      beq_eq_false_iff_ne] at hrow
  case ping => exact requestOf_ping hrow
  case unknownCmd =>
    obtain ⟨⟨hg, hs⟩, hping⟩ := hrow
    exact requestOf_unknown hg hs hping
  case getPwmInput | getCurrent | getTemperature =>
    obtain ⟨hcmd, hsig⟩ := hrow
    simp [requestOf_get hp hcmd, hsig, hpc.symm, hpt.symm, hct.symm]
  case setCurrent | setTemperature | setPwmInput =>
    obtain ⟨hcmd, hsig⟩ := hrow
    simp [requestOf_set hp hcmd, hsig, hpc, hpt, hct.symm]
  case getOther =>
    obtain ⟨hcmd, ⟨hpwm, hcur⟩, htemp⟩ := hrow
    simp [requestOf_get hp hcmd, hpwm, hcur, htemp]
  case setOther =>
    obtain ⟨hcmd, ⟨hpwm, hcur⟩, htemp⟩ := hrow
    simp [requestOf_set hp hcmd, hpwm, hcur, htemp]

/-- Settles O2: the selected row carries the frame and its condition holds; conversely one row only can hold. -/
theorem requestFrameSelectsExactlyItsRow : Obligations.RequestFrameSelectsExactlyItsRow := by
  intro p f i hp
  constructor
  · rintro rfl
    exact ⟨requestFrame_requestOf p f, rowHolds_requestOf p f⟩
  · rintro ⟨hf, hrow⟩
    exact requestOf_of_rowHolds hp hf hrow

end Sys2Proof.Machine
end

section
/-! SUPPORT. Decoding what was encoded: frames (R184, R185), then each group of ports (R99, R100, R103). -/

namespace Sys2Proof.Machine

variable {p : Params}

/-! ### Frames -/

/-- A value is assembled from the two bytes it was sent as, in either byte order (R62, R97). -/
@[simp] theorem assembleValue_valueBytes (p : Params) (v : U16) :
    assembleValue p (valueByte4 p v) (valueByte5 p v) = v := by
  cases h : p.valueLowFirst <;> simp [assembleValue, valueByte4, valueByte5, h]

/-- DECODE of ENCODE gives the frame back (R186). -/
@[simp] theorem decodeFrame_encodeFrame (p : Params) (f : Frame) : decodeFrame p (encodeFrame p f) = f := by
  have hvalue : (decodeFrame p (encodeFrame p f)).value = f.value := assembleValue_valueBytes p f.value
  exact congrArg (fun v => { f with value := v }) hvalue

/-- The eight bytes of a vector are read back. -/
theorem bytes8?_toList (b : Bytes8) : bytes8? b.toList = some b := by
  obtain ⟨⟨l⟩, hl⟩ := b
  match l, hl with
  | [_, _, _, _, _, _, _, _], _ => rfl

/-- The ports whose operand is eight bytes in wire order (R99, R100, R103). -/
def eightBytePorts : List Port :=
  [.request, .rspGetOk, .rspSetOk, .rspPingOk, .rspError, .rspIsrError,
   .enqueue, .validate, .markersValid, .frameValid, .encodeFrame, .decodeFrame]

/-- On these ports the decoder reads eight bytes. -/
theorem decode_eightBytes {port : Port} (h : port ∈ eightBytePorts) (b : Bytes8) :
    decode p ⟨port, b.toList⟩ = decodeEight p port b := by
  cases port with
  | rxByte | deq | cksum | capEdge | wrapsub | duty | sampleTake | initRx | initFifo | initCapture =>
    exact absurd h (by decide)
  | _ => simp only [decode, bytes8?_toList]

/-- Where the decoder reads the eight bytes as a frame and goes on with `read`, the bytes of `f` decode to what `read` makes
of `f`. -/
theorem decode_frameOperand (port : Port) {read : Frame → Except DecodeError Instr} {f : Frame} {i : Instr}
    (h : port ∈ eightBytePorts) (hi : read f = .ok i) (hread : ∀ b, decodeEight p port b = read (decodeFrame p b)) :
    decode p ⟨port, (encodeFrame p f).toList⟩ = .ok i := by
  rw [decode_eightBytes h, hread, decodeFrame_encodeFrame, hi]

/-- The operations that take any frame. -/
theorem decode_frameOperation (port : Port) (mk : Frame → Instr) (f : Frame) (h : port ∈ eightBytePorts)
    (hread : ∀ b, decodeEight p port b = .ok (mk (decodeFrame p b))) :
    decode p ⟨port, (encodeFrame p f).toList⟩ = .ok (mk f) :=
  decode_frameOperand port (read := fun g => .ok (mk g)) h rfl hread

/-! ### Requests (R99) -/

theorem encode_request {i : Instr} {f : Frame} (hf : requestFrame i = some f) :
    encode p i = ⟨.request, (encodeFrame p f).toList⟩ := by
  cases i <;> cases hf <;> rfl

theorem wellFormed_request {i : Instr} {f : Frame} (hf : requestFrame i = some f) :
    i.wellFormed p = true ↔ markersValid p f = true ∧ i.rowHolds p = true := by
  cases i <;> cases hf <;> exact Bool.and_eq_true_iff

/-- A request is read as the row its frame selects, which is the row it came from. -/
theorem decode_encode_request {i : Instr} {f : Frame} (hf : requestFrame i = some f) (hp : p.valid = true)
    (hwf : i.wellFormed p = true) : decode p (encode p i) = .ok i := by
  obtain ⟨hmarkers, hrow⟩ := (wellFormed_request hf).1 hwf
  have hread : decodeRequest p f = .ok i := by
    rw [decodeRequest, if_pos hmarkers, requestOf_of_rowHolds hp hf hrow]
  rw [encode_request hf]
  exact decode_frameOperand .request (by decide) hread fun _ => rfl

/-! ### Responses (R100) -/

theorem decodeResponse_getOk (p : Params) (c g : Byte) (v : U16) :
    decodeResponse p .rspGetOk (getOkResponse p c g v) = .ok (.rspGetOk c g v) :=
  if_pos ⟨markersValid_sealFrame p _ c g v, rfl⟩

theorem decodeResponse_setOk (p : Params) (c g : Byte) (v : U16) :
    decodeResponse p .rspSetOk (setOkResponse p c g v) = .ok (.rspSetOk c g v) :=
  if_pos ⟨markersValid_sealFrame p _ c g v, rfl⟩

theorem decodeResponse_pingOk (p : Params) : decodeResponse p .rspPingOk (pingOkResponse p) = .ok .rspPingOk :=
  if_pos rfl

theorem decodeResponse_error (p : Params) (c g : Byte) (v : U16) :
    decodeResponse p .rspError (errorResponse p c g v) = .ok (.rspError c g v) :=
  if_pos ⟨markersValid_sealFrame p _ c g v, rfl⟩

/-- The row fixes the whole frame but for the three fields, which are those ISR_ERROR_FIELDS can give (R145). -/
theorem decodeResponse_isrError {c g : Byte} {v : U16} (hwf : (Instr.rspIsrError c g v).wellFormed p = true) :
    decodeResponse p .rspIsrError (errorResponse p c g v) = .ok (.rspIsrError c g v) :=
  if_pos ⟨rfl, hwf⟩

/-! ### Events (R103) -/

theorem isTimestamp_iff {ts : Nat} : isTimestamp p ts = true ↔ ts ≤ p.counterMax := decide_eq_true_iff

/-- A channel operand is read as it was written. -/
theorem channelByte_toNat (c : ChannelIndex) : (BitVec.ofNat 8 c.val).toNat = c.val := by
  rw [BitVec.toNat_ofNat]
  omega

theorem decodeEdge_encode (c : ChannelIndex) {ts : Nat} (hts : ts ≤ p.counterMax) :
    decodeEdge p (BitVec.ofNat 8 c.val :: natBytes (stampBytes p) ts) = .ok (.edge c ts) := by
  simp only [decodeEdge, natBytes_length, if_true, channelByte_toNat, c.isLt, dite_true, ofBytes_stamp p hts]

theorem decodeSampleTake_encode (c : ChannelIndex) :
    decodeSampleTake [BitVec.ofNat 8 c.val] = .ok (.sampleTake c) := by
  simp only [decodeSampleTake, channelByte_toNat, c.isLt, dite_true]

/-- Two timestamp-wide operands are told apart by their width. -/
theorem decodePair_encode (port : Port) (mk : Nat → Nat → Instr) {a b : Nat} (ha : a ≤ p.counterMax)
    (hb : b ≤ p.counterMax) :
    decodePair p port mk (natBytes (stampBytes p) a ++ natBytes (stampBytes p) b) = .ok (mk a b) := by
  have hlen : (natBytes (stampBytes p) a ++ natBytes (stampBytes p) b).length = 2 * stampBytes p := by
    rw [List.length_append, natBytes_length, natBytes_length, Nat.two_mul]
  have htake := List.take_left' (l₂ := natBytes (stampBytes p) b) (natBytes_length (stampBytes p) a)
  have hdrop := List.drop_left' (l₂ := natBytes (stampBytes p) b) (natBytes_length (stampBytes p) a)
  rw [decodePair, if_pos hlen, htake, hdrop, ofBytes_stamp p ha, ofBytes_stamp p hb]

theorem decodeCksum_encode (c h g : Byte) (v : U16) :
    decodeCksum [c, h, g, valueHigh v, valueLow v] = .ok (.cksum c h g v) := by
  rw [decodeCksum, joinBytes_value]

/-- Settles O1: a request by the row its frame selects, a response by its port and fixed bytes, an operation on a frame by
the round trip of frames, an event by that of its operands. -/
theorem everyInstructionDecodesFromItsEncoding : Obligations.EveryInstructionDecodesFromItsEncoding := by
  intro p i hp hwf
  cases i with
  | ping | getPwmInput | getCurrent | getTemperature | setCurrent | setTemperature | setPwmInput | getOther | setOther
  | unknownCmd => exact decode_encode_request rfl hp hwf
  | rspGetOk c g v    => exact decode_frameOperand .rspGetOk (by decide) (decodeResponse_getOk p c g v) fun _ => rfl
  | rspSetOk c g v    => exact decode_frameOperand .rspSetOk (by decide) (decodeResponse_setOk p c g v) fun _ => rfl
  | rspPingOk         => exact decode_frameOperand .rspPingOk (by decide) (decodeResponse_pingOk p) fun _ => rfl
  | rspError c g v    => exact decode_frameOperand .rspError (by decide) (decodeResponse_error p c g v) fun _ => rfl
  | rspIsrError c g v => exact decode_frameOperand .rspIsrError (by decide) (decodeResponse_isrError hwf) fun _ => rfl
  | enqueue f         => exact decode_frameOperation .enqueue .enqueue f (by decide) fun _ => rfl
  | validate f        => exact decode_frameOperation .validate .validate f (by decide) fun _ => rfl
  | markersValid f    => exact decode_frameOperation .markersValid .markersValid f (by decide) fun _ => rfl
  | frameValid f      => exact decode_frameOperation .frameValid .frameValid f (by decide) fun _ => rfl
  | encodeFrame f     => exact decode_frameOperation .encodeFrame .encodeFrame f (by decide) fun _ => rfl
  | decodeFrame b     => exact decode_eightBytes (port := .decodeFrame) (by decide) b
  | cksum c h g v     => exact decodeCksum_encode c h g v
  | edge c ts         => exact decodeEdge_encode c (isTimestamp_iff.1 hwf)
  | sampleTake c      => exact decodeSampleTake_encode c
  | wrapsub a b       =>
    obtain ⟨ha, hb⟩ := Bool.and_eq_true_iff.1 hwf
    exact decodePair_encode .wrapsub .wrapsub (isTimestamp_iff.1 ha) (isTimestamp_iff.1 hb)
  | duty w q          =>
    obtain ⟨hw, hq⟩ := Bool.and_eq_true_iff.1 hwf
    exact decodePair_encode .duty .duty (isTimestamp_iff.1 hw) (isTimestamp_iff.1 hq)
  | rxByte | dequeue | initRx | initFifo | initCapture => rfl

/-! ### Words of the opcode table (R105) -/

/-- A word that the table reads as the encoding of a well-formed instruction decodes to that instruction. -/
theorem decodeTableWord_of_encode {nbits w : Nat} {i : Instr}
    (hw : tableWord nbits w = some (encode Params.reference i)) (hwf : i.wellFormed Params.reference = true) :
    decodeTableWord nbits w = some i := by
  have hdec := everyInstructionDecodesFromItsEncoding Params.reference i (by decide) hwf
  simp only [decodeTableWord, hw, hdec, Except.toOption]

/-- Settles O6: each word is, on the port of the row that fixes most of it, the encoding of the instruction. -/
theorem printedWordsDecode : Obligations.PrintedWordsDecode := by
  refine ⟨?_, ?_, ?_, ?_, ?_, ?_⟩ <;> exact decodeTableWord_of_encode (by decide) (by decide)

end Sys2Proof.Machine
end

section
/-! SUPPORT. The channel index (R98) and the response rows (R100, R256). -/

namespace Sys2Proof.Machine

/-- The byte has an index exactly when it lies in CH_1 .. CH_1 + 2, and the index is then the difference (R98). -/
theorem channelIndex_eq_some {p : Params} {ch : Byte} {c : ChannelIndex} :
    channelIndex p ch = some c ↔ ch.toNat = p.ch1.toNat + c.val := by
  have hc := c.isLt
  by_cases h : p.ch1.toNat ≤ ch.toNat ∧ ch.toNat ≤ p.ch1.toNat + 2
  · rw [channelIndex, dif_pos h, Option.some.injEq, Fin.ext_iff]
    simp only
    omega
  · rw [channelIndex, dif_neg h]
    simp only [reduceCtorEq, false_iff]
    omega

theorem channelIndex_eq_none {p : Params} {ch : Byte} :
    channelIndex p ch = none ↔ ¬ (p.ch1.toNat ≤ ch.toNat ∧ ch.toNat ≤ p.ch1.toNat + 2) := by
  rw [channelIndex, dite_eq_right_iff]
  simp only [reduceCtorEq, imp_false]

/-- Settles O5. -/
theorem channelIndexIsTheDifferenceInRange : Obligations.ChannelIndexIsTheDifferenceInRange :=
  fun _ _ => ⟨fun _ => channelIndex_eq_some, channelIndex_eq_none⟩

theorem getOkCommand_eq (p : Params) (c : Byte) :
    getOkCommand p c = if p.getOkCommand = .channelCode then c else p.statusOk := by
  cases h : p.getOkCommand <;> simp [getOkCommand, h]

/-- Settles O49: a response row is `Respond` of its sealed frame, which is one answer (R183, R258). -/
theorem responseRowsTransmitOneFrame : Obligations.ResponseRowsTransmitOneFrame := by
  intro s c g cmd v hcmd
  rw [← getOkCommand_eq] at hcmd
  subst hcmd
  exact ⟨⟨_, rfl, respond_answers (getOkResponse s.params c g v) s⟩,
    ⟨_, rfl, respond_answers (setOkResponse s.params c g v) s⟩,
    ⟨_, rfl, respond_answers (pingOkResponse s.params) s⟩,
    ⟨_, rfl, respond_answers (errorResponse s.params c g v) s⟩,
    ⟨_, rfl, respond_answers (errorResponse s.params c g v) s⟩⟩

end Sys2Proof.Machine
end

section
/-! SUPPORT. The transitions of the frame receiver as equations: what RX_BYTE answers in each state of R143, and what the
Complete processing answers (R130 to R139). -/

namespace Sys2Proof.Machine

variable {s : State}

/-! ### The Complete processing (R135, R136, R137) -/

/-- DECODE checks nothing, so the markers of a received group are its first and its last byte (R185, R189). -/
theorem markersValid_decodeFrame (p : Params) (v : Bytes8) :
    markersValid p (decodeFrame p v) = true ↔ v[0] = p.startMarker ∧ v[7] = p.endMarker :=
  markersValid_iff p (decodeFrame p v)

theorem completeFrame_malformed (hm : ¬ (s.rx.buf[0] = s.params.startMarker ∧ s.rx.buf[7] = s.params.endMarker)) :
    completeFrame s = .next (failReception .malformedFrame s) :=
  if_neg (mt (markersValid_decodeFrame _ _).1 hm)

/-- A group with both markers: the ring buffer decides. -/
theorem completeFrame_marked (hm : s.rx.buf[0] = s.params.startMarker ∧ s.rx.buf[7] = s.params.endMarker) :
    completeFrame s =
      if s.up.fifo then
        if s.fifo.count = 16 then .next (failReception .bufferFull s)
        else .next (s.setFifo (s.fifo.push (decodeFrame s.params s.rx.buf)))
      else .refused .fifoNotInitialised := by
  have hmarkers := (markersValid_decodeFrame _ _).2 hm
  obtain ⟨hc, he⟩ | ⟨hc, he⟩ := tryEnqueue_cases (decodeFrame s.params s.rx.buf) s <;>
    simp [completeFrame, hmarkers, hc, he]

/-! ### RX_BYTE (R141, R143) -/

theorem arm_disarm {r : Receiver} (h : r.armed = true) : r.disarm.arm = r := by
  obtain ⟨_, _, _, armed⟩ := r
  cases h
  rfl

/-- RX_BYTE while armed is the transition of the byte between disarming and re-arming (R130, R139). -/
theorem exec_rxByte_armed (ha : s.rx.armed = true) (b : Byte) :
    exec (.rxByte b) s = andThen (receiveByte b (s.setRx s.rx.disarm)) fun t => .next (rearm t) :=
  if_pos ha

theorem receiveByte_awaitingStart (hs : s.rx.state = .awaitingStart) (b : Byte) :
    receiveByte b s = .next (awaitByte b s) := by
  simp only [receiveByte, hs]

theorem receiveByte_accumulating (hs : s.rx.state = .accumulating) (b : Byte) :
    receiveByte b s = accumulateByte b s := by
  simp only [receiveByte, hs]

/-- Settles O23: the byte is no start marker, so the receiver is as it was but disarmed, and then armed again. -/
theorem byteOutsideAFrameIsDiscarded : Obligations.ByteOutsideAFrameIsDiscarded := by
  intro s b ha hs hb
  have hdiscard : awaitByte b (s.setRx s.rx.disarm) = s.setRx s.rx.disarm := if_neg hb
  rw [exec_rxByte_armed ha, receiveByte_awaitingStart (s := s.setRx s.rx.disarm) hs, andThen_next, hdiscard]
  simp only [rearm, setRx_rx, arm_disarm ha]
  rfl

/-- Settles O24. -/
theorem startMarkerBeginsAFrame : Obligations.StartMarkerBeginsAFrame := by
  intro s b ha hs hb
  have hbegin : awaitByte b (s.setRx s.rx.disarm) = s.setRx ⟨.accumulating, 1, s.rx.buf.set 0 b, false⟩ := if_pos hb
  rw [exec_rxByte_armed ha, receiveByte_awaitingStart (s := s.setRx s.rx.disarm) hs, andThen_next, hbegin]
  rfl

/-- Settles O25: at an index up to 6 the byte is stored, whatever its value. -/
theorem byteInsideAFrameIsStored : Obligations.ByteInsideAFrameIsStored := by
  intro s b k hk ha hs hi
  subst hi
  have hstore : s.rx.disarm.store s.rx.index b =
      { s.rx.disarm with buf := s.rx.buf.set s.rx.index b (by omega) } := dif_pos (by omega)
  have hbyte : accumulateByte b (s.setRx s.rx.disarm) =
      .next (s.setRx { s.rx.disarm.store s.rx.index b with index := s.rx.index + 1 }) := if_pos hk
  rw [exec_rxByte_armed ha, receiveByte_accumulating (s := s.setRx s.rx.disarm) hs, hbyte, andThen_next, hstore]
  simp only [Receiver.disarm, hs]
  rfl

/-- The eighth byte of a group ends it: the Complete processing, the return to AwaitingStart and the re-arm (R134, R138). -/
theorem exec_rxByte_eighth (ha : s.rx.armed = true) (hs : s.rx.state = .accumulating) (h7 : s.rx.index = 7) (b : Byte) :
    exec (.rxByte b) s =
      andThen (completeFrame (s.setRx ⟨.complete, 8, s.rx.buf.set 7 b, false⟩)) fun t =>
        .next (rearm (t.setRx t.rx.awaitStart)) := by
  have hend : accumulateByte b (s.setRx s.rx.disarm) =
      andThen (completeFrame (s.setRx ⟨.complete, 8, s.rx.buf.set 7 b, false⟩)) fun t => .next (t.setRx t.rx.awaitStart) := by
    simp only [accumulateByte, setRx_rx, Receiver.disarm, h7]
    rfl
  rw [exec_rxByte_armed ha, receiveByte_accumulating (s := s.setRx s.rx.disarm) hs, hend]
  cases completeFrame (s.setRx ⟨.complete, 8, s.rx.buf.set 7 b, false⟩) <;> rfl

/-- The markers of the group that the byte `b` ends. -/
theorem group_markers (v : Bytes8) (b : Byte) (p : Params) :
    ((v.set 7 b)[0] = p.startMarker ∧ (v.set 7 b)[7] = p.endMarker) ↔ v[0] = p.startMarker ∧ b = p.endMarker := by
  simp

/-- Settles O26: the group has both markers and there is room, so the Complete processing enqueues the frame. -/
theorem eighthByteEnqueuesTheFrame : Obligations.EighthByteEnqueuesTheFrame := by
  intro s b ha hs h7 h0 hb hu hc
  have hroom : s.fifo.count ≠ 16 := by omega
  rw [exec_rxByte_eighth ha hs h7, completeFrame_marked ((group_markers ..).2 ⟨h0, hb⟩)]
  simp only [setRx_up, setRx_fifo, hu, hroom, if_true, if_false]
  rfl

/-- The sender reads nothing of the receiver (R44, R258). -/
theorem respond_setRx (r : Frame) (x : Receiver) (s : State) : respond r (s.setRx x) = (respond r s).setRx x := by
  simp only [respond_eq]
  rfl

/-- Settles O27: either way the Complete processing is the report and the error response of R145, and the sender does not
look at the receiver, whose return to AwaitingStart comes after it. -/
theorem eighthByteReportsAReceiverError : Obligations.EighthByteReportsAReceiverError := by
  intro s b k ha hs h7 hk
  have hfail : completeFrame (s.setRx ⟨.complete, 8, s.rx.buf.set 7 b, false⟩) =
      .next (failReception k (s.setRx ⟨.complete, 8, s.rx.buf.set 7 b, false⟩)) := by
    obtain ⟨hm, rfl⟩ | ⟨h0, hb, hu, hc, rfl⟩ := hk
    · exact completeFrame_malformed (mt (group_markers ..).1 (not_and_or.2 hm))
    · rw [completeFrame_marked ((group_markers ..).2 ⟨h0, hb⟩)]
      simp only [setRx_up, setRx_fifo, hu, hc, if_true]
  refine ⟨_, _, rfl, fun hz => ?_, respond_answers _ _, ?_⟩
  · simp only [isrErrorFields, hz]
  · rw [exec_rxByte_eighth ha hs h7, hfail, andThen_next]
    simp only [failReception, respond_eq]
    rfl

/-- Settles O28. -/
theorem initRxArmsReception : Obligations.InitRxArmsReception := fun _ => rfl

end Sys2Proof.Machine
end

section
/-! SUPPORT. The eight bytes of a frame: what `rx.buf` holds after the first of them, and the whole reception (R64, R141). -/

namespace Sys2Proof.Machine

variable {s : State}

/-- `rx.buf` after the first `n` bytes of `v` (R22): the cells below `n` are those of `v`, the others keep what they held. -/
def received (v : Bytes8) (n : Nat) (buf : Bytes8) : Bytes8 := .ofFn fun j => if j.val < n then v[j] else buf[j]

theorem received_zero (v buf : Bytes8) : received v 0 buf = buf := by
  refine Vector.ext fun j _ => ?_
  simp [received]

theorem received_eight (v buf : Bytes8) : received v 8 buf = v := by
  refine Vector.ext fun j _ => ?_
  simp [received]

/-- Storing the next byte at the index. -/
theorem received_set (v buf : Bytes8) {n : Nat} (hn : n < 8) :
    (received v n buf).set n v[n] = received v (n + 1) buf := by
  refine Vector.ext fun j hj => ?_
  by_cases h : n = j
  · subst h
    simp [received]
  · have hlt : j ≤ n ↔ j < n := by omega
    simp [received, h, hlt]

theorem receiveAll_append (l m : List Byte) (s : State) :
    receiveAll (l ++ m) s = andThen (receiveAll l s) (receiveAll m) := by
  induction l generalizing s with
  | nil => rfl
  | cons b l ih =>
    simp only [List.cons_append, receiveAll]
    cases exec (.rxByte b) s with
    | next t    => exact ih t
    | fault e   => rfl
    | refused e => rfl

/-- One byte more of `v`. -/
theorem receiveAll_take_succ (v : Bytes8) {n : Nat} (hn : n < 8) {t : State}
    (h : receiveAll (v.toList.take n) s = .next t) :
    receiveAll (v.toList.take (n + 1)) s = exec (.rxByte v[n]) t := by
  have htake : v.toList.take (n + 1) = v.toList.take n ++ [v[n]] := by
    rw [List.take_add_one, List.getElem?_eq_getElem (by simpa using hn)]
    simp
  rw [htake, receiveAll_append, h]
  simp only [andThen_next, receiveAll]
  cases exec (.rxByte v[n]) t <;> rfl

/-- The first one to seven bytes of a group that begins with the start marker are stored, with a re-arm each (R132, R133). -/
theorem receiveAll_take (v : Bytes8) (ha : s.rx.armed = true) (hs : s.rx.state = .awaitingStart)
    (h0 : v[0] = s.params.startMarker) {n : Nat} (hn : n ≤ 6) :
    receiveAll (v.toList.take (n + 1)) s = .next { s with
      rx    := ⟨.accumulating, n + 1, received v (n + 1) s.rx.buf, true⟩
      trace := s.trace ++ List.replicate (n + 1) .rxRearm } := by
  induction n with
  | zero =>
    have hset : s.rx.buf.set 0 v[0] = received v 1 s.rx.buf := by
      rw [← received_set v _ (by omega), received_zero]
    rw [receiveAll_take_succ v (by omega) (n := 0) rfl, startMarkerBeginsAFrame s v[0] ha hs h0, hset]
    rfl
  | succ n ih =>
    rw [receiveAll_take_succ v (by omega) (ih (by omega)),
      byteInsideAFrameIsStored _ v[n + 1] (n + 1) hn rfl rfl rfl]
    simp only [received_set v _ (show n + 1 < 8 by omega), List.append_assoc, ← List.replicate_succ']

/-- Settles O30: seven bytes are stored, the eighth ends the group with both markers, and DECODE of ENCODE gives the frame
back. -/
theorem eightBytesDeliverTheFrame : Obligations.EightBytesDeliverTheFrame := by
  intro s f ha hs hu hc hm
  obtain ⟨hstart, hend⟩ := (markersValid_iff _ f).1 hm
  have hseven := receiveAll_take (encodeFrame s.params f) ha hs hstart (n := 6) le_rfl
  have hbuf : (received (encodeFrame s.params f) 7 s.rx.buf).set 7 f.endMark = encodeFrame s.params f :=
    (received_set (encodeFrame s.params f) s.rx.buf (by omega)).trans (received_eight ..)
  have hfirst : (received (encodeFrame s.params f) 7 s.rx.buf)[0] = s.params.startMarker := by
    rw [← hstart]
    rfl
  have heighth := eighthByteEnqueuesTheFrame { s with
      rx    := ⟨.accumulating, 7, received (encodeFrame s.params f) 7 s.rx.buf, true⟩
      trace := s.trace ++ List.replicate 7 .rxRearm } f.endMark rfl rfl rfl hfirst hend hu hc
  calc receiveAll (encodeFrame s.params f).toList s
      = exec (.rxByte f.endMark) _ := receiveAll_take_succ (encodeFrame s.params f) (by omega) hseven
    _ = _ := heighth
    _ = _ := by
      simp only [hbuf, decodeFrame_encodeFrame, List.append_assoc]
      rfl

end Sys2Proof.Machine
end

section
/-! SUPPORT. When reception is armed (R139, R323), and the events that are refused (R130, U9, U10). -/

namespace Sys2Proof.Machine

variable {s t : State}

theorem SameRegisters.rx (h : SameRegisters s t) : t.rx = s.rx := by obtain ⟨_, _, _, rfl⟩ := h; rfl

/-- A request, a response row, SAMPLE_TAKE or a combinational operation leaves the receiver alone (R44). -/
theorem ConsumerEffect.rx {i : Instr} (h : ConsumerEffect i s t) : t.rx = s.rx := by
  cases h with
  | quiet h | sampleTaken _ _ h | setterStored _ _ h => exact h.rx

/-- RX_BYTE and INIT_RX end with the re-arm (R139, R142). -/
theorem ReceiverMove.armed {p : Params} {r r' : Receiver} (h : ReceiverMove p r r') : r'.armed = true := by
  cases h <;> rfl

/-- An instruction leaves the receiver alone or leaves it armed. -/
theorem exec_rx_armed {i : Instr} (hx : exec i s = .next t) : t.rx = s.rx ∨ t.rx.armed = true := by
  cases exec_effect hx with
  | consumer he => exact .inl he.rx
  | received _ hr h | delivered _ hr _ _ h => exact .inr (by rw [h.rx]; exact hr.armed)
  | queued _ _ h => exact .inl h.rx
  | dequeued h =>
    obtain ⟨-, ⟨-, -, rfl⟩ | ⟨-, -, rfl⟩ | ⟨-, rfl⟩ | ⟨-, rfl⟩ | ⟨-, rfl⟩⟩ := execDequeue_cases h <;> exact .inl rfl
  | edge _ _ _ _ e | fifoReset _ _ e | captureReset _ _ e => exact .inl (e ▸ rfl)

/-- Settles O29: a completed RX_BYTE ends with the re-arm, and every other instruction leaves the receiver alone or armed. -/
theorem receptionStaysArmed : Obligations.ReceptionStaysArmed := by
  intro i s t hx
  constructor
  · intro ha
    obtain hrx | harmed := exec_rx_armed hx
    · rw [hrx, ha]
    · exact harmed
  · rintro b rfl
    obtain ⟨-, u, rfl, -⟩ := execRxByte_cases hx
    exact ⟨rfl, List.getLast?_concat⟩

/-! ### Refused events: before the INIT of its engine (R45, U9), or with a timestamp out of range (U10) -/

theorem exec_enqueue_down (h : s.up.fifo = false) (f : Frame) : exec (.enqueue f) s = .refused .fifoNotInitialised :=
  if_neg (by simp [h])

theorem exec_dequeue_down (h : s.up.fifo = false) : exec .dequeue s = .refused .fifoNotInitialised :=
  if_neg (by simp [h])

theorem exec_edge_down (h : s.up.cap = false) (c : ChannelIndex) (ts : Nat) :
    exec (.edge c ts) s = .refused .captureNotInitialised :=
  if_neg (by simp [h])

theorem exec_sampleTake_down (h : s.up.cap = false) (c : ChannelIndex) :
    exec (.sampleTake c) s = .refused .captureNotInitialised :=
  if_neg (by simp [h])

/-- A GET of PWM-input gets as far as its SAMPLE_TAKE (R245). -/
theorem exec_getPwmInput_down (h : s.up.cap = false) {f : Frame} {c : ChannelIndex} (hv : validate f = true)
    (hc : channelIndex s.params f.channel = some c) : exec (.getPwmInput f) s = .refused .captureNotInitialised := by
  have hroute : routeSample f c s = .refused .captureNotInitialised := if_neg (by simp [h])
  calc exec (.getPwmInput f) s = onChannel f (routeSample f) s := if_pos hv
    _ = routeSample f c s := by simp only [onChannel, hc]
    _ = .refused .captureNotInitialised := hroute

theorem exec_edge_late (h : s.up.cap = true) (c : ChannelIndex) {ts : Nat} (hts : s.params.counterMax < ts) :
    exec (.edge c ts) s = .refused .timestampOutOfRange := by
  have hout : ¬ isTimestamp s.params ts = true := fun hin => hts.not_ge (isTimestamp_iff.1 hin)
  exact (if_pos h).trans (if_neg hout)

/-- The eighth byte of a good group would ENQUEUE (R136, U9). -/
theorem exec_rxByte_eighth_down {b : Byte} (ha : s.rx.armed = true) (hs : s.rx.state = .accumulating)
    (h7 : s.rx.index = 7) (h0 : s.rx.buf[0] = s.params.startMarker) (hb : b = s.params.endMarker)
    (hu : s.up.fifo = false) : exec (.rxByte b) s = .refused .fifoNotInitialised := by
  rw [exec_rxByte_eighth ha hs h7, completeFrame_marked ((group_markers ..).2 ⟨h0, hb⟩), setRx_up, hu]
  rfl

/-- Settles O38. -/
theorem eventsOutsideTheirConditionsAreRefused : Obligations.EventsOutsideTheirConditionsAreRefused := by
  intro s b f c ts
  refine ⟨fun ha => if_neg (by simp [ha]), exec_rxByte_eighth_down, ?_, ?_, fun hu => exec_getPwmInput_down hu, ?_⟩
  · exact fun hu => ⟨exec_enqueue_down hu f, exec_dequeue_down hu⟩
  · exact fun hu => ⟨exec_edge_down hu c ts, exec_sampleTake_down hu c⟩
  · exact fun hu hts => exec_edge_late hu c hts

end Sys2Proof.Machine
end

section
/-! SUPPORT. Runs of the machine: a row of received bytes, the four micro-steps of a DEQUEUE, the service of a frame with a
wrong checksum; then source scenario S10. -/

namespace Sys2Proof.Machine

variable {s t : State}

/-- A run that goes on after its first `m` steps. -/
theorem run_add {m : Nat} (n : Nat) (h : Host.Core.run Sys2Proof.core m s = .next t) :
    Host.Core.run Sys2Proof.core (m + n) s = Host.Core.run Sys2Proof.core n t := by
  induction m generalizing s with
  | zero =>
    obtain rfl := Host.Outcome.next.inj h
    rw [Nat.zero_add]
  | succ m ih =>
    rw [Nat.succ_add]
    cases hs : step s with
    | next u =>
      rw [run_next m hs] at h
      rw [run_next (m + n) hs, ih h]
    | fault e =>
      have hcore : Sys2Proof.core.step s = .fault e := hs
      simp [Host.Core.run, hcore] at h
    | refused e =>
      have hcore : Sys2Proof.core.step s = .refused e := hs
      simp [Host.Core.run, hcore] at h

/-! ### Received bytes -/

/-- The sender does not look at the inbox. -/
theorem failReception_setInbox (k : ErrorKind) (l : List InboxItem) (s : State) :
    failReception k (s.setInbox l) = (failReception k s).setInbox l := by
  simp only [failReception_eq]
  rfl

theorem completeFrame_setInbox (h : completeFrame s = .next t) (l : List InboxItem) :
    completeFrame (s.setInbox l) = .next (t.setInbox l) := by
  obtain ⟨hm, hu, hc, rfl⟩ | ⟨hm, hu, hc, rfl⟩ | ⟨hm, rfl⟩ := completeFrame_cases h
  · rw [completeFrame_marked (s := s.setInbox l) ((markersValid_decodeFrame _ _).1 hm)]
    simp only [setInbox_up, setInbox_fifo, hu, hc, if_true, if_false]
    rfl
  · rw [completeFrame_marked (s := s.setInbox l) ((markersValid_decodeFrame _ _).1 hm)]
    simp only [setInbox_up, setInbox_fifo, hu, hc, if_true, failReception_setInbox]
  · have hbad := mt (markersValid_decodeFrame s.params s.rx.buf).2 (by simp [hm])
    rw [completeFrame_malformed (s := s.setInbox l) hbad, failReception_setInbox]

/-- RX_BYTE neither reads nor writes the environment's coming events: one case for each transition of R143. -/
theorem exec_rxByte_setInbox {b : Byte} (hx : exec (.rxByte b) s = .next t) (l : List InboxItem) :
    exec (.rxByte b) (s.setInbox l) = .next (t.setInbox l) := by
  have same {u : State} (h : exec (.rxByte b) s = .next u)
      (hl : exec (.rxByte b) (s.setInbox l) = .next (u.setInbox l)) :
      exec (.rxByte b) (s.setInbox l) = .next (t.setInbox l) := by
    rw [hl, Host.Outcome.next.inj (h.symm.trans hx)]
  obtain ⟨ha, -, -, ⟨hs, hb, -⟩ | ⟨hs, hb, -⟩ | ⟨hi, hs, -⟩ | ⟨hs, h7, v, hv, -⟩⟩ := execRxByte_cases hx
  · exact same (byteOutsideAFrameIsDiscarded s b ha hs hb) (byteOutsideAFrameIsDiscarded (s.setInbox l) b ha hs hb)
  · exact same (startMarkerBeginsAFrame s b ha hs hb) (startMarkerBeginsAFrame (s.setInbox l) b ha hs hb)
  · exact same (byteInsideAFrameIsStored s b _ hi ha hs rfl) (byteInsideAFrameIsStored (s.setInbox l) b _ hi ha hs rfl)
  · have hend := exec_rxByte_eighth ha hs h7 b
    have hend' := exec_rxByte_eighth (s := s.setInbox l) ha hs h7 b
    rw [hv] at hend
    exact same hend (hend'.trans (congrArg (andThen · _) (completeFrame_setInbox hv l)))

/-- The event of a received byte. -/
def byteEvent (b : Byte) : InboxItem := .event ⟨.rxByte, [b]⟩

/-- The step of a received byte that completes (R14, R69). -/
theorem step_byteEvent {b : Byte} (hp : s.params.valid = true) (hx : exec (.rxByte b) s = .next t)
    (l : List InboxItem) : step (s.setInbox (byteEvent b :: l)) = .next (t.setInbox l) := by
  rw [stepRunsTheDecodedEvent (s.setInbox (byteEvent b :: l)) ⟨.rxByte, [b]⟩ l (.rxByte b) hp rfl rfl]
  exact exec_rxByte_setInbox hx l

/-- Bytes at the head of the inbox are received one a step, and the rest of the inbox is left (R14, R69). -/
theorem run_receiveAll {bs : List Byte} (hp : s.params.valid = true) (h : receiveAll bs s = .next t)
    (rest : List InboxItem) :
    Host.Core.run Sys2Proof.core bs.length (s.setInbox (bs.map byteEvent ++ rest)) = .next (t.setInbox rest) := by
  induction bs generalizing s with
  | nil =>
    obtain rfl := Host.Outcome.next.inj h
    rfl
  | cons b bs ih =>
    obtain ⟨u, hu, hall⟩ := andThen_eq_next.1 h
    have hp' : u.params.valid = true := by rw [exec_params hu nofun, hp]
    rw [List.length_cons, ← ih hp' hall]
    exact run_next _ (step_byteEvent hp hu (bs.map byteEvent ++ rest))

/-! ### The consumer alone -/

/-- Without events, outside the service of a frame, a step is a micro-step of DEQUEUE (R241). -/
theorem step_dequeue (hp : s.params.valid = true) (hin : s.env.inbox = []) (hs : s.cons.phase ≠ .service) :
    step s = execDequeue s := by
  rw [step_of_valid hp, fetch_turn (.idle hin)]
  cases hphase : s.cons.phase with
  | service => exact absurd hphase hs
  | idle | deq1 | deq2 | deq3 | deq4 =>
    simp only [fetchConsumer, hphase, runFetched]
    rfl

/-- Without events, a frame in service is serviced and retired (R241, R261). -/
theorem step_service {f : Frame} (hp : s.params.valid = true) (hin : s.env.inbox = []) (hs : s.cons = ⟨.service, some f⟩) :
    step s = andThen (exec (requestOf s.params f) s) fun u => .next (retire u) := by
  rw [step_of_valid hp, fetch_turn (.idle hin)]
  simp only [fetchConsumer, hs, runFetched]

/-- What the four micro-steps of a DEQUEUE leave: the oldest frame with the consumer, its slot released (R162, R165). -/
def dequeued (s : State) : State :=
  { s with
    fifo  := { s.fifo with head := advance s.fifo.head, count := s.fifo.count - 1 }
    cons  := ⟨.service, some (s.fifo.slotRead s.fifo.head)⟩
    reply := .dequeued (some (s.fifo.slotRead s.fifo.head)) }

/-- Without events, an idle consumer that finds a frame holds it four steps later: the test, the copy, the advance of head
and the release of the slot. -/
theorem run_dequeue (hp : s.params.valid = true) (hu : s.up.fifo = true) (hin : s.env.inbox = [])
    (hi : s.cons.phase = .idle) (hc : s.fifo.count ≠ 0) :
    Host.Core.run Sys2Proof.core 4 s = .next (dequeued s) := by
  have htest : step s = .next (s.setCons ⟨.deq2, s.cons.frame⟩) := by
    rw [step_dequeue hp hin (by rw [hi]; nofun)]
    simp [execDequeue, hu, hi, dequeueTest, RingBuffer.empty, hc]
  have hread : step (s.setCons ⟨.deq2, s.cons.frame⟩) = .next (dequeueRead s) :=
    (step_dequeue (s := s.setCons ⟨.deq2, s.cons.frame⟩) hp hin nofun).trans (if_pos hu)
  have hadvance : step (dequeueRead s) = .next (dequeueAdvance (dequeueRead s)) :=
    (step_dequeue (s := dequeueRead s) hp hin nofun).trans (if_pos hu)
  have hrelease : step (dequeueAdvance (dequeueRead s)) = .next (dequeued s) :=
    (step_dequeue (s := dequeueAdvance (dequeueRead s)) hp hin nofun).trans (if_pos hu)
  rw [run_next 3 htest, run_next 2 hread, run_next 1 hadvance, run_next 0 hrelease]
  rfl

/-- A request with a wrong checksum fails, whatever its row (R242). -/
theorem exec_wrongChecksum {i : Instr} {f : Frame} (hf : requestFrame i = some f) (hv : validate f = false) (s : State) :
    exec i s = .next (failRequest .checksumMismatch f s) := by
  have hv' : ¬ validate f = true := by simp [hv]
  cases i <;> cases hf <;> exact if_neg hv'

/-! ### Scenario S10 -/

/-- An idle machine with an empty buffer has its next free slot at the head (R29). -/
theorem tail_eq_head (h : s.Inv) (hi : s.cons.phase = .idle) (hc : s.fifo.count = 0) : s.fifo.tail = s.fifo.head := by
  obtain ⟨-, -, htail⟩ := h.fifo
  have hlt := s.fifo.head.isLt
  simp only [hi, hc, reduceCtorEq, if_false, Nat.add_zero, Nat.mod_eq_of_lt hlt] at htail
  exact Fin.ext htail

/-- `s` after the eight bytes of `f`, no event being left. -/
def withFrame (f : Frame) (s : State) : State :=
  { s with
    rx    := ⟨.awaitingStart, 0, encodeFrame s.params f, true⟩
    fifo  := s.fifo.push f
    env   := { s.env with inbox := [] }
    trace := s.trace ++ List.replicate 8 .rxRearm }

/-- The eight byte events of a frame with both markers are eight steps that queue it. -/
theorem run_eightBytes {f : Frame} (h : s.Inv) (hs : s.rx.state = .awaitingStart) (hc : s.fifo.count < 16)
    (hm : markersValid s.params f = true) (hin : s.env.inbox = (encodeFrame s.params f).toList.map byteEvent) :
    Host.Core.run Sys2Proof.core 8 s = .next (withFrame f s) := by
  have hself : s = s.setInbox ((encodeFrame s.params f).toList.map byteEvent ++ []) := by
    rw [List.append_nil, ← hin]
    rfl
  exact (congrArg (Host.Core.run Sys2Proof.core 8) hself).trans
    (run_receiveAll h.params (eightBytesDeliverTheFrame s f h.armed hs h.fifoUp hc hm) [])

/-- A frame with a wrong checksum that the consumer holds is answered by the failure of R242, and gone. -/
theorem step_wrongChecksum {f : Frame} (hp : s.params.valid = true) (hin : s.env.inbox = [])
    (hs : s.cons = ⟨.service, some f⟩) (hv : validate f = false) :
    step s = .next (retire (failRequest .checksumMismatch f s)) := by
  rw [step_service hp hin hs, exec_wrongChecksum (requestFrame_requestOf _ f) hv, andThen_next]

/-- Settles O59: the eight bytes deliver the frame, the four micro-steps of DEQUEUE hand it to the consumer, and its service
fails at the checksum. -/
theorem corruptedFrameIsAnsweredWithError : Obligations.CorruptedFrameIsAnsweredWithError := by
  intro s f hinv hs hc hi hm hv hin
  have hbytes : Host.Core.run Sys2Proof.core 8 s = .next (withFrame f s) :=
    run_eightBytes hinv hs (by omega) hm hin
  have hdequeue : Host.Core.run Sys2Proof.core 4 (withFrame f s) = .next (dequeued (withFrame f s)) :=
    run_dequeue hinv.params hinv.fifoUp rfl hi (Nat.succ_ne_zero _)
  have hfront : (s.fifo.push f).slotRead s.fifo.head = f := by
    rw [← tail_eq_head hinv hi hc, push_slotRead_tail]
  have hservice : step (dequeued (withFrame f s)) =
      .next (retire (failRequest .checksumMismatch f (dequeued (withFrame f s)))) :=
    step_wrongChecksum hinv.params rfl (congrArg (fun g => Consumer.mk .service (some g)) hfront) hv
  rw [failRequest_eq] at hservice
  exact ⟨_, _, (run_add 5 hbytes).trans ((run_add 1 hdequeue).trans (run_next 0 hservice)), rfl, rfl, rfl, hc, rfl⟩

end Sys2Proof.Machine
end

section
/-! SUPPORT. The operations of the ring buffer as instructions: ENQUEUE once and in a row, the micro-steps of DEQUEUE one by
one and all four, INIT_FIFO, and the idle consumer's poll. -/

namespace Sys2Proof.Machine

variable {s : State}

/-! ### ENQUEUE -/

/-- ENQUEUE below 16 frames (R160). -/
theorem exec_enqueue_room (hu : s.up.fifo = true) (hc : s.fifo.count < 16) (f : Frame) :
    exec (.enqueue f) s = .next ((s.setFifo (s.fifo.push f)).setReply (.bool true)) := by
  obtain ⟨-, htried⟩ | ⟨hfull, -⟩ := tryEnqueue_cases f s
  · exact (if_pos hu).trans (by rw [htried])
  · omega

/-- ENQUEUE at 16 frames (R161). -/
theorem exec_enqueue_full (hu : s.up.fifo = true) (hc : s.fifo.count = 16) (f : Frame) :
    exec (.enqueue f) s = .next (s.setReply (.bool false)) := by
  obtain ⟨hroom, -⟩ | ⟨-, htried⟩ := tryEnqueue_cases f s
  · exact absurd hc hroom
  · exact (if_pos hu).trans (by rw [htried])

/-- Settles O32. -/
theorem enqueueStoresOrRejects : Obligations.EnqueueStoresOrRejects :=
  fun _ f hu => ⟨fun hc => exec_enqueue_room hu hc f, fun hc => exec_enqueue_full hu hc f⟩

/-! ### The micro-steps of DEQUEUE -/

/-- Step 1 (R165), from Idle as from Deq1. -/
theorem exec_dequeue_test (hu : s.up.fifo = true) (hp : s.cons.phase = .idle ∨ s.cons.phase = .deq1) :
    exec .dequeue s = .next (dequeueTest s) := by
  obtain hp | hp := hp <;> exact (if_pos hu).trans (by simp only [hp])

/-- The test finds nothing: none is returned (R163). -/
theorem exec_dequeue_empty (hu : s.up.fifo = true) (hp : s.cons.phase = .idle ∨ s.cons.phase = .deq1)
    (hc : s.fifo.count = 0) :
    exec .dequeue s = .next ((s.setCons { s.cons with phase := .idle }).setReply (.dequeued none)) :=
  (exec_dequeue_test hu hp).trans (congrArg _ (if_pos (by simp [RingBuffer.empty, hc])))

/-- The test finds a frame. -/
theorem exec_dequeue_nonempty (hu : s.up.fifo = true) (hp : s.cons.phase = .idle ∨ s.cons.phase = .deq1)
    (hc : s.fifo.count > 0) : exec .dequeue s = .next (s.setCons { s.cons with phase := .deq2 }) :=
  (exec_dequeue_test hu hp).trans (congrArg _ (if_neg (by simp [RingBuffer.empty, Nat.ne_of_gt hc])))

theorem exec_dequeue_read (hu : s.up.fifo = true) (hp : s.cons.phase = .deq2) :
    exec .dequeue s = .next (dequeueRead s) :=
  (if_pos hu).trans (by simp only [hp])

theorem exec_dequeue_advance (hu : s.up.fifo = true) (hp : s.cons.phase = .deq3) :
    exec .dequeue s = .next (dequeueAdvance s) :=
  (if_pos hu).trans (by simp only [hp])

theorem exec_dequeue_release (hu : s.up.fifo = true) (hp : s.cons.phase = .deq4) :
    exec .dequeue s = .next (dequeueRelease s) :=
  (if_pos hu).trans (by simp only [hp])

/-- A DEQUEUE during a service is a second consumer's (U7, R240). -/
theorem exec_dequeue_service (hu : s.up.fifo = true) (hp : s.cons.phase = .service) :
    exec .dequeue s = .refused .secondConsumer :=
  (if_pos hu).trans (by simp only [hp])

/-- Settles O33. -/
theorem dequeueMicroSteps : Obligations.DequeueMicroSteps :=
  fun _ hu => ⟨fun hp => ⟨exec_dequeue_empty hu hp, exec_dequeue_nonempty hu hp⟩, exec_dequeue_read hu,
    exec_dequeue_advance hu, exec_dequeue_release hu, exec_dequeue_service hu⟩

/-! ### A whole DEQUEUE -/

/-- On a buffer that holds a frame the four micro-steps are the test, the copy, the advance of head and the release of the
slot (R162, R165). -/
theorem exec_dequeue_four (hu : s.up.fifo = true) (hp : s.cons.phase = .idle ∨ s.cons.phase = .deq1)
    (hc : s.fifo.count > 0) :
    andThen (exec .dequeue s) (fun a => andThen (exec .dequeue a) fun b =>
      andThen (exec .dequeue b) fun c => exec .dequeue c) = .next (dequeued s) := by
  have hread : exec .dequeue (s.setCons { s.cons with phase := .deq2 }) = .next (dequeueRead s) :=
    exec_dequeue_read hu rfl
  have hadvance : exec .dequeue (dequeueRead s) = .next (dequeueAdvance (dequeueRead s)) := exec_dequeue_advance hu rfl
  have hrelease : exec .dequeue (dequeueAdvance (dequeueRead s)) = .next (dequeued s) := exec_dequeue_release hu rfl
  rw [exec_dequeue_nonempty hu hp hc, andThen_next, hread, andThen_next, hadvance, andThen_next, hrelease]

/-- Outside Deq4 a queue with a first frame has it at head, the others behind it, and all of them counted (R29). -/
theorem queued_eq_cons {f : Frame} {fs : List Frame} (hp : s.cons.phase ≠ .deq4) (hq : s.queued = f :: fs) :
    s.fifo.count = fs.length + 1 ∧ s.fifo.slotRead s.fifo.head = f ∧
      s.fifo.slotsFrom (advance s.fifo.head) fs.length = fs := by
  rw [queued_of_ne_deq4 hp] at hq
  have hlen : s.fifo.count = fs.length + 1 := (slotsFrom_length ..).symm.trans (congrArg List.length hq)
  rw [hlen, slotsFrom_cons] at hq
  exact ⟨hlen, List.cons.inj hq⟩

/-- Settles O34: the four micro-steps hand over the slot at head, and the slots from the next one on are the queue that is
left. -/
theorem dequeueReturnsTheOldestFrame : Obligations.DequeueReturnsTheOldestFrame := by
  intro s f fs hu hp hq
  have hp4 : s.cons.phase ≠ .deq4 := by obtain hp | hp := hp <;> simp [hp]
  obtain ⟨hcount, hfirst, hothers⟩ := queued_eq_cons hp4 hq
  refine ⟨dequeued s, exec_dequeue_four hu hp (by omega), ?_, ?_, ?_, rfl, ?_⟩
  · exact congrArg (Reply.dequeued ∘ some) hfirst
  · calc (dequeued s).queued = s.fifo.slotsFrom (advance s.fifo.head) (s.fifo.count - 1) := queued_of_ne_deq4 nofun
      _ = fs := by rw [hcount, Nat.add_sub_cancel, hothers]
  · exact Nat.sub_add_cancel (by omega)
  · exact congrArg (Consumer.mk .service ∘ some) hfirst

/-! ### ENQUEUEs in a row -/

/-- The producer's writes for each frame in turn. -/
def RingBuffer.pushAll (q : RingBuffer) (fs : List Frame) : RingBuffer := fs.foldl RingBuffer.push q

@[simp] theorem pushAll_nil (q : RingBuffer) : q.pushAll [] = q := rfl

@[simp] theorem pushAll_cons (q : RingBuffer) (f : Frame) (fs : List Frame) :
    q.pushAll (f :: fs) = (q.push f).pushAll fs := rfl

@[simp] theorem pushAll_head (q : RingBuffer) (fs : List Frame) : (q.pushAll fs).head = q.head := by
  induction fs generalizing q with
  | nil => rfl
  | cons f fs ih => rw [pushAll_cons, ih, push_head]

@[simp] theorem pushAll_count (q : RingBuffer) (fs : List Frame) : (q.pushAll fs).count = q.count + fs.length := by
  induction fs generalizing q with
  | nil => rfl
  | cons f fs ih =>
    rw [pushAll_cons, ih, push_count, List.length_cons]
    omega

theorem pushAll_tail_val (q : RingBuffer) (fs : List Frame) :
    (q.pushAll fs).tail.val = (q.tail.val + fs.length) % 16 := by
  induction fs generalizing q with
  | nil => exact (Nat.mod_eq_of_lt q.tail.isLt).symm
  | cons f fs ih =>
    rw [pushAll_cons, ih, push_tail, advance_val, List.length_cons]
    omega

/-- Queueing behind `n` frames, with the tail where R29 puts it and room for all, adds the new frames in their order at the
end. -/
theorem slotsFrom_pushAll (q : RingBuffer) {n : Nat} (fs : List Frame) (hn : n + fs.length ≤ 16)
    (ht : q.tail.val = (q.head.val + n) % 16) :
    (q.pushAll fs).slotsFrom q.head (n + fs.length) = q.slotsFrom q.head n ++ fs := by
  induction fs generalizing q n with
  | nil => simp
  | cons f fs ih =>
    rw [List.length_cons] at hn
    have ht' : (q.push f).tail.val = ((q.push f).head.val + (n + 1)) % 16 := by
      rw [push_tail, push_head, advance_val]
      omega
    have hrest := ih (q.push f) (n := n + 1) (by omega) ht'
    rw [push_head, slotsFrom_push q f (by omega) ht, Nat.add_right_comm] at hrest
    rw [pushAll_cons, List.length_cons, ← Nat.add_assoc, hrest, List.append_assoc, List.singleton_append]

/-- What ENQUEUEs that all find room leave: the frames stored, the reply true (R160). -/
def enqueued (fs : List Frame) (s : State) : State := (s.setFifo (s.fifo.pushAll fs)).setReply (.bool true)

theorem enqueueAll_room (hu : s.up.fifo = true) (f : Frame) (fs : List Frame) (hc : s.fifo.count + fs.length < 16) :
    enqueueAll (f :: fs) s = .next (enqueued (f :: fs) s) := by
  induction fs generalizing s f with
  | nil => rw [enqueueAll, exec_enqueue_room hu hc, andThen_next]; rfl
  | cons g gs ih =>
    rw [List.length_cons] at hc
    have hroom : (s.fifo.push f).count + gs.length < 16 := by rw [push_count]; omega
    have hrest := ih (s := enqueued [f] s) hu g hroom
    rw [enqueueAll, exec_enqueue_room hu (by omega), andThen_next]
    exact hrest

/-- Settles O35: sixteen frames fit, bring the tail round to head, and leave no room for one more. -/
theorem seventeenthEnqueueFails : Obligations.SeventeenthEnqueueFails := by
  intro s fs f hu hc ht hp hlen
  obtain ⟨g, gs, rfl⟩ := List.exists_cons_of_length_eq_add_one hlen
  have hcount : (s.fifo.pushAll (g :: gs)).count = 16 := by rw [pushAll_count, hc, hlen]
  have htail : (s.fifo.pushAll (g :: gs)).tail = s.fifo.tail := Fin.ext (by rw [pushAll_tail_val, hlen]; omega)
  have hqueued : (s.fifo.pushAll (g :: gs)).slotsFrom s.fifo.head 16 = g :: gs := by
    have hall := slotsFrom_pushAll s.fifo (n := 0) (g :: gs) (by omega) (by rw [ht]; omega)
    rw [hlen] at hall
    exact hall
  have hroom : s.fifo.count + gs.length < 16 := by rw [List.length_cons] at hlen; omega
  refine ⟨enqueued (g :: gs) s, enqueueAll_room hu g gs hroom, rfl, ?_, hcount, htail, pushAll_head .., ?_⟩
  · calc (enqueued (g :: gs) s).queued
      _ = (s.fifo.pushAll (g :: gs)).slotsFrom (s.fifo.pushAll (g :: gs)).head (s.fifo.pushAll (g :: gs)).count :=
        queued_of_ne_deq4 hp
      _ = g :: gs := by rw [pushAll_head, hcount, hqueued]
  · exact exec_enqueue_full (s := enqueued (g :: gs) s) hu hcount f

/-! ### INIT_FIFO -/

/-- Settles O36: the phases inside a DEQUEUE are Deq2 to Deq4 (U8). -/
theorem initFifoEmptiesTheBuffer : Obligations.InitFifoEmptiesTheBuffer := by
  refine fun s => ⟨fun hp => ?_, fun hp => ?_⟩
  · exact execInitFifo_next.2 ⟨by obtain hp | hp | hp := hp <;> rw [hp] <;> rfl, rfl⟩
  · exact if_pos (by obtain hp | hp | hp := hp <;> rw [hp] <;> rfl)

/-! ### The idle consumer -/

/-- Settles O58: the step is the test of DEQUEUE, which finds the buffer empty and leaves the phase Idle. -/
theorem quiescentMachineWaits : Obligations.QuiescentMachineWaits := by
  intro s hv hu hin hp hc
  have hcons : { s.cons with phase := .idle } = s.cons := by rw [← hp]
  calc step s = execDequeue s := step_dequeue hv hin (by rw [hp]; nofun)
    _ = .next ((s.setCons { s.cons with phase := .idle }).setReply (.dequeued none)) := exec_dequeue_empty hu (.inl hp) hc
    _ = .next { s with reply := .dequeued none } := by rw [hcons]; rfl

end Sys2Proof.Machine
end

section
/-! SUPPORT. ENCODE of DECODE, the other half of R186; the checksum under exclusive or, from which R187 and R188 follow; the
pure operations of 42_checksum.md as instructions. -/

namespace Sys2Proof

open Machine

/-! ### ENCODE and DECODE (R186) -/

/-- A value assembled from two bytes is sent as these bytes, in either byte order (R62, R97). -/
theorem valueBytes_assembleValue (p : Params) (b4 b5 : Byte) :
    valueByte4 p (assembleValue p b4 b5) = b4 ∧ valueByte5 p (assembleValue p b4 b5) = b5 := by
  cases h : p.valueLowFirst <;> simp [assembleValue, valueByte4, valueByte5, h]

/-- ENCODE of DECODE gives the bytes back (R186): the two value bytes are computed, the others copied. -/
@[simp] theorem encodeFrame_decodeFrame (p : Params) (b : Bytes8) : encodeFrame p (decodeFrame p b) = b := by
  obtain ⟨h4, h5⟩ := valueBytes_assembleValue p b[4] b[5]
  refine Vector.ext fun j hj => ?_
  match j, hj with
  | 4, _ => exact h4
  | 5, _ => exact h5
  | 0, _ | 1, _ | 2, _ | 3, _ | 6, _ | 7, _ => rfl

/-- Settles O3: a map with an inverse on both sides is a bijection. -/
theorem encodeAndDecodeAreInverse : Obligations.EncodeAndDecodeAreInverse := fun p =>
  ⟨decodeFrame_encodeFrame p, encodeFrame_decodeFrame p,
    Function.bijective_iff_has_inverse.2 ⟨decodeFrame p, decodeFrame_encodeFrame p, encodeFrame_decodeFrame p⟩,
    Function.bijective_iff_has_inverse.2 ⟨encodeFrame p, encodeFrame_decodeFrame p, decodeFrame_encodeFrame p⟩⟩

/-! ### The checksum under exclusive or (R180) -/

section Xor

variable (c h g d : Byte) (v e : U16)

theorem cksum_command_xor : cksum (c ^^^ d) h g v = cksum c h g v ^^^ d := by
  simp only [cksum]
  ac_rfl

theorem cksum_channel_xor : cksum c (h ^^^ d) g v = cksum c h g v ^^^ d := by
  simp only [cksum]
  ac_rfl

theorem cksum_signal_xor : cksum c h (g ^^^ d) v = cksum c h g v ^^^ d := by
  simp only [cksum]
  ac_rfl

/-- Flips in the value reach the checksum through both value bytes. -/
theorem cksum_value_xor : cksum c h g (v ^^^ e) = cksum c h g v ^^^ (valueLow e ^^^ valueHigh e) := by
  simp only [cksum, valueLow_xor, valueHigh_xor]
  ac_rfl

end Xor

/-- The checksum of flipped bytes is their checksum, flipped by the checksum of the flips. -/
theorem cksum_xor (c h g c' h' g' : Byte) (v v' : U16) :
    cksum (c ^^^ c') (h ^^^ h') (g ^^^ g') (v ^^^ v') = cksum c h g v ^^^ cksum c' h' g' v' := by
  rw [cksum_command_xor, cksum_channel_xor, cksum_signal_xor, cksum_value_xor, cksum.eq_def c']
  ac_rfl

/-! ### Flips in a valid frame (R187, R188) -/

/-- VALIDATE failing, as an inequality (R181). -/
theorem validate_eq_false_iff (f : Frame) :
    validate f = false ↔ f.checksum ≠ cksum f.command f.channel f.signal f.value := by
  rw [← Bool.not_eq_true, validate_iff]

/-- Settles O11: both sides of the comparison take their own flips, and what is left to compare is the flips alone. -/
theorem balancedFlipsPassAndNoOthers : Obligations.BalancedFlipsPassAndNoOthers := by
  intro f e hv
  rw [validate_iff, cksum_xor, (validate_iff f).1 hv, BitVec.xor_right_inj, eq_comm]
  exact BitVec.xor_eq_zero_iff.symm

/-- Flipping bit `k` of a byte changes it, at bit `k`. -/
theorem xor_twoPow_ne (x : Byte) (k : Fin 8) : x ^^^ BitVec.twoPow 8 k.val ≠ x := by
  intro h
  have hbit := congrArg (fun y => y.getLsbD k.val) h
  simp at hbit

/-- A frame whose computed checksum is one bit off that of a valid frame with the same checksum byte fails (R187). -/
theorem validate_eq_false_of_cksum_flip {f g : Frame} {k : Fin 8} (hv : validate f = true)
    (hsum : cksum g.command g.channel g.signal g.value =
      cksum f.command f.channel f.signal f.value ^^^ BitVec.twoPow 8 k.val)
    (hbyte : g.checksum = f.checksum) : validate g = false := by
  rw [validate_eq_false_iff, hsum, hbyte, (validate_iff f).1 hv]
  exact (xor_twoPow_ne _ k).symm

/-- A valid frame with one flipped checksum bit fails (R187). -/
theorem validate_checksum_flip {f : Frame} (k : Fin 8) (hv : validate f = true) :
    validate { f with checksum := f.checksum ^^^ BitVec.twoPow 8 k.val } = false := by
  rw [validate_eq_false_iff, ← (validate_iff f).1 hv]
  exact xor_twoPow_ne _ k

/-- Bit `k` of a value is bit `k` of its low byte, and of no other. -/
theorem valueBytes_twoPow_low (k : Fin 8) :
    valueLow (BitVec.twoPow 16 k.val) ^^^ valueHigh (BitVec.twoPow 16 k.val) = BitVec.twoPow 8 k.val := by
  revert k
  decide

/-- Bit `k + 8` of a value is bit `k` of its high byte, and of no other. -/
theorem valueBytes_twoPow_high (k : Fin 8) :
    valueLow (BitVec.twoPow 16 (k.val + 8)) ^^^ valueHigh (BitVec.twoPow 16 (k.val + 8)) = BitVec.twoPow 8 k.val := by
  revert k
  decide

/-- Settles O10: a flip in one of the five payload bytes is one of the rules above, and leaves the checksum byte alone. -/
theorem singleBitFlipIsAlwaysDetected : Obligations.SingleBitFlipIsAlwaysDetected := by
  intro f k bit sum
  have hcommand : cksum (f.command ^^^ bit) f.channel f.signal f.value = sum ^^^ bit := cksum_command_xor ..
  have hchannel : cksum f.command (f.channel ^^^ bit) f.signal f.value = sum ^^^ bit := cksum_channel_xor ..
  have hsignal : cksum f.command f.channel (f.signal ^^^ bit) f.value = sum ^^^ bit := cksum_signal_xor ..
  have hlow : cksum f.command f.channel f.signal (f.value ^^^ BitVec.twoPow 16 k.val) = sum ^^^ bit := by
    rw [cksum_value_xor, valueBytes_twoPow_low]
  have hhigh : cksum f.command f.channel f.signal (f.value ^^^ BitVec.twoPow 16 (k.val + 8)) = sum ^^^ bit := by
    rw [cksum_value_xor, valueBytes_twoPow_high]
  refine ⟨hcommand, hchannel, hsignal, hlow, hhigh, fun hv => ?_⟩
  have fails {g : Frame} := validate_eq_false_of_cksum_flip (g := g) (k := k) hv
  exact ⟨fails hcommand rfl, fails hchannel rfl, fails hsignal rfl, fails hlow rfl, fails hhigh rfl,
    validate_checksum_flip k hv⟩

end Sys2Proof

namespace Sys2Proof.Machine

/-! ### The pure operations as instructions -/

/-- CKSUM with the value bytes as the remainder and the quotient of the value by 256 (R11, R180). -/
theorem cksum_eq (c h g : Byte) (v : U16) :
    cksum c h g v = c ^^^ h ^^^ g ^^^ BitVec.ofNat 8 (v.toNat % 256) ^^^ BitVec.ofNat 8 (v.toNat / 256) := by
  rw [← valueLow_toNat, ← valueHigh_toNat, BitVec.ofNat_toNat, BitVec.ofNat_toNat]
  rfl

/-- FRAME_VALID as equations (R190). -/
theorem frameValid_iff (p : Params) (f : Frame) :
    frameValid p f = true ↔ f.startMark = p.startMarker ∧ f.endMark = p.endMarker ∧
      f.checksum = cksum f.command f.channel f.signal f.value := by
  rw [frameValid, Bool.and_eq_true, markersValid_iff, validate_iff, and_assoc]

/-- The bytes that ENCODE puts at offsets 4 and 5, in one equation (R184). -/
theorem valueBytes_toNat (p : Params) (v : U16) :
    ((valueByte4 p v).toNat, (valueByte5 p v).toNat) =
      if p.valueLowFirst then (v.toNat % 256, v.toNat / 256) else (v.toNat / 256, v.toNat % 256) := by
  rw [← valueLow_toNat, ← valueHigh_toNat]
  cases h : p.valueLowFirst <;> simp [valueByte4, valueByte5, h]

/-- The number that DECODE reads at offsets 4 and 5, in one equation (R185). -/
theorem assembleValue_toNat (p : Params) (b4 b5 : Byte) :
    (assembleValue p b4 b5).toNat =
      if p.valueLowFirst then b5.toNat * 256 + b4.toNat else b4.toNat * 256 + b5.toNat := by
  rw [← joinBytes_toNat, ← joinBytes_toNat, assembleValue, apply_ite BitVec.toNat]

/-- A predicate answered with `b` is answered with the decision of what `b` is equivalent to. -/
theorem reply_bool_decide {b : Bool} {P : Prop} [Decidable P] (h : b = true ↔ P) (s : State) :
    (.next (s.setReply (.bool b)) : Result) = .next { s with reply := .bool (decide P) } := by
  rw [Bool.eq_iff_iff.2 (h.trans decide_eq_true_iff.symm)]
  rfl

/-- Settles O9: the arm of each instruction is its result put into the reply, and each result has its law. -/
theorem pureOperationsReturnTheirResult : Obligations.PureOperationsReturnTheirResult := by
  intro s f b c h g v
  refine ⟨?_, reply_bool_decide (validate_iff f) s, reply_bool_decide (markersValid_iff s.params f) s,
    reply_bool_decide (frameValid_iff s.params f) s, ?_, ?_⟩
  · exact congrArg (fun x => Host.Outcome.next (s.setReply (.byte x))) (cksum_eq c h g v)
  · exact ⟨_, _, valueBytes_toNat s.params f.value, rfl⟩
  · exact ⟨_, assembleValue_toNat s.params b[4] b[5], rfl⟩

end Sys2Proof.Machine
end

section
/-! SUPPORT. The capture arithmetic (43_capture.md section 2): WRAPSUB on timestamps (R203), DUTY and its narrowing
(R204, R213), as functions and as instructions. -/

namespace Sys2Proof

variable {p : Params} {a b : Nat}

/-! ### WRAPSUB -/

/-- R203: a difference in 0..COUNTER_MAX that differs from `a - b` by no or one turn of the counter. -/
theorem wrapsub_emod (ha : a ≤ p.counterMax) (hb : b ≤ p.counterMax) :
    (wrapsub p a b : Int) = ((a : Int) - (b : Int)) % ((p.counterMax : Int) + 1) := by
  unfold wrapsub
  split_ifs with hab
  · rw [Int.emod_eq_of_lt] <;> omega
  · rw [← Int.add_emod_right, Int.emod_eq_of_lt] <;> omega

/-- R203: counting the ticks forward from `b` ends at `a`. -/
theorem wrapsub_forward (ha : a ≤ p.counterMax) (hb : b ≤ p.counterMax) :
    (b + wrapsub p a b) % (p.counterMax + 1) = a := by
  unfold wrapsub
  split_ifs with hab
  · rw [Nat.add_sub_cancel' hab, Nat.mod_eq_of_lt (Nat.lt_succ_of_le ha)]
  · have hturn : b + (p.counterMax + 1 - b + a) = a + (p.counterMax + 1) := by omega
    rw [hturn, Nat.add_mod_right, Nat.mod_eq_of_lt (Nat.lt_succ_of_le ha)]

/-- Only equal timestamps are no ticks apart. -/
theorem wrapsub_pos_iff (hb : b ≤ p.counterMax) : wrapsub p a b > 0 ↔ b ≠ a := by
  unfold wrapsub
  split_ifs <;> omega

/-- Settles O12. -/
theorem wrapsubIsTheModularDifference : Obligations.WrapsubIsTheModularDifference :=
  fun p _ _ ha hb => ⟨rfl, wrapsub_emod ha hb, Machine.wrapsub_le p ha hb, wrapsub_forward ha hb⟩

/-! ### DUTY -/

variable {v w q : Nat}

/-- Up to 65535 narrowing is the identity (R213). -/
theorem dutyNarrow_toNat_of_lt (p : Params) (hv : v < 65536) : (dutyNarrow p v).toNat = v := by
  rw [dutyNarrow, if_pos (Nat.le_of_lt_succ hv), BitVec.toNat_ofNat, Nat.mod_eq_of_lt hv]

/-- Above 65535 the default keeps the low sixteen bits (R213). -/
theorem dutyNarrow_toNat_of_modulo (hv : 65536 ≤ v) (hm : p.dutyNarrow = .modulo) :
    (dutyNarrow p v).toNat = v % 65536 := by
  simp only [dutyNarrow, if_neg (Nat.not_le_of_lt hv), hm, BitVec.toNat_ofNat]
  exact Nat.mod_mod v 65536

/-- With a period above 0 DUTY is the narrowed quotient (R204). -/
theorem dutyOf_of_pos (p : Params) (w : Nat) (hq : q > 0) : dutyOf p w q = dutyNarrow p (w * 100 / q) :=
  if_neg hq.ne'

/-- R204: a quotient up to 65535 is the percentage rounded down. -/
theorem dutyOf_floor (p : Params) (hq : q > 0) (hw : w * 100 < 65536 * q) :
    (dutyOf p w q).toNat * q ≤ w * 100 ∧ w * 100 < ((dutyOf p w q).toNat + 1) * q := by
  rw [dutyOf_of_pos p w hq, dutyNarrow_toNat_of_lt p ((Nat.div_lt_iff_lt_mul hq).2 hw)]
  exact ⟨Nat.div_mul_le_self _ q, (Nat.div_lt_iff_lt_mul hq).1 (Nat.lt_succ_self _)⟩

/-- R213: a quotient above 65535 under the default DUTY_NARROW. -/
theorem dutyOf_modulo (hq : q > 0) (hw : w * 100 ≥ 65536 * q) (hm : p.dutyNarrow = .modulo) :
    (dutyOf p w q).toNat = (w * 100 / q) % 65536 := by
  rw [dutyOf_of_pos p w hq, dutyNarrow_toNat_of_modulo ((Nat.le_div_iff_mul_le hq).2 hw) hm]

end Sys2Proof

namespace Sys2Proof.Machine

/-! ### The instructions WRAPSUB and DUTY -/

theorem exec_duty (w q : Nat) (s : State) : exec (.duty w q) s = .next (s.setReply (.duty (dutyOf s.params w q))) := rfl

/-- Settles O14: whatever the operands, the result is that of `dutyOf`. -/
theorem dutyIsTheFlooredPercentage : Obligations.DutyIsTheFlooredPercentage :=
  fun s w q => ⟨dutyOf s.params w q, exec_duty w q s, dutyOf_floor s.params, dutyOf_modulo⟩

theorem exec_wrapsub_timestamps {s : State} {a b : Nat} (ha : a ≤ s.params.counterMax) (hb : b ≤ s.params.counterMax) :
    exec (.wrapsub a b) s = .next (s.setReply (.ticks (wrapsub s.params a b))) :=
  if_pos (by rw [isTimestamp_iff.2 ha, isTimestamp_iff.2 hb, Bool.and_self])

/-- U10. -/
theorem exec_wrapsub_outOfRange {s : State} {a b : Nat} (h : a > s.params.counterMax ∨ b > s.params.counterMax) :
    exec (.wrapsub a b) s = .refused .timestampOutOfRange := by
  refine if_neg fun hin => ?_
  rw [Bool.and_eq_true, isTimestamp_iff, isTimestamp_iff] at hin
  omega

/-- Settles O13. -/
theorem wrapsubReturnsTicksOrIsRefused : Obligations.WrapsubReturnsTicksOrIsRefused :=
  fun _ _ _ => ⟨exec_wrapsub_timestamps, exec_wrapsub_outOfRange⟩

end Sys2Proof.Machine
end

section
/-! SUPPORT. The capture channels (43_capture.md): the writes of one channel, EDGE in its two forms, SAMPLE_TAKE and
INIT_CAPTURE. -/

namespace Sys2Proof.Machine

variable {s : State} {p : Params} {c d : ChannelIndex} {ts : Nat} {ch : CapChannel}

/-! ### Writes of a capture channel -/

/-- Writing back what a channel holds changes nothing. -/
@[simp] theorem setCap_getElem_self (s : State) (c : ChannelIndex) : s.setCap c s.cap[c] = s := by
  simp [State.setCap]

/-- Of two writes of one channel the second stays. -/
@[simp] theorem setCap_setCap (s : State) (c : ChannelIndex) (x y : CapChannel) :
    (s.setCap c x).setCap c y = s.setCap c y := by
  simp [State.setCap]

/-- Writes of two channels do not meet (R208). -/
theorem setCap_comm (s : State) (h : c ≠ d) (x y : CapChannel) :
    (s.setCap c x).setCap d y = (s.setCap d y).setCap c x := by
  have hval : c.val ≠ d.val := fun e => h (Fin.ext e)
  simp [State.setCap, Vector.set_comm x y hval]

/-! ### EDGE -/

/-- EDGE of an initialised channel at a timestamp (R200). -/
theorem exec_edge_timestamp (hu : s.up.cap = true) (hts : ts ≤ s.params.counterMax) (c : ChannelIndex) :
    exec (.edge c ts) s = .next (s.setCap c (s.cap[c].edge s.params ts)) :=
  execEdge_next.2 ⟨hu, hts, rfl⟩

/-- The falling form without a period (R205). -/
theorem edge_falling_unpublished (p : Params) (ts : Nat) (h : ch.edgeState = .awaitingFalling) (hp : ch.period = 0) :
    ch.edge p ts =
      { ch with pulseWidth := wrapsub p ts ch.lastRising, edgeState := .awaitingRising, polarity := .rising } := by
  simp [edge_falling p ts h, hp]

/-- The falling form with a period (R202, R206). -/
theorem edge_falling_published (p : Params) (ts : Nat) (h : ch.edgeState = .awaitingFalling) (hp : ch.period > 0) :
    ch.edge p ts = { ch with
      pulseWidth  := wrapsub p ts ch.lastRising
      dutyValue   := dutyOf p (wrapsub p ts ch.lastRising) ch.period
      sampleReady := true
      edgeState   := .awaitingRising
      polarity    := .rising } := by
  simp [edge_falling p ts h, hp]

/-- Settles O15. -/
theorem risingEdgeMeasuresThePeriod : Obligations.RisingEdgeMeasuresThePeriod := by
  intro s c ts hu hts he
  rw [exec_edge_timestamp hu hts, edge_rising s.params ts he]
  rfl

/-- Settles O16. -/
theorem fallingEdgeMeasuresAndPublishes : Obligations.FallingEdgeMeasuresAndPublishes := by
  rintro s c ts hu hts he w rfl
  constructor
  · intro hp
    rw [exec_edge_timestamp hu hts, edge_falling_unpublished s.params ts he hp]
    rfl
  · intro hp
    refine ⟨dutyOf s.params (wrapsub s.params ts s.cap[c].lastRising) s.cap[c].period, exec_duty .., ?_⟩
    rw [exec_edge_timestamp hu hts, edge_falling_published s.params ts he hp]
    rfl

/-- Settles O17: both edges are refused for the same reason before INIT_CAPTURE, a timestamp out of range is refused in
either order, and otherwise each edge writes its own channel by what that channel holds. -/
theorem edgesOfTwoChannelsCommute : Obligations.EdgesOfTwoChannelsCommute := by
  intro s c d tc td hcd
  cases hu : s.up.cap with
  | false => simp only [exec_edge_down hu, andThen_refused]
  | true =>
    have hup (e : ChannelIndex) (ch : CapChannel) : (s.setCap e ch).up.cap = true := hu
    obtain hc | hc := Nat.lt_or_ge s.params.counterMax tc <;> obtain hd | hd := Nat.lt_or_ge s.params.counterMax td
    · simp only [exec_edge_late hu _ hc, exec_edge_late hu _ hd, andThen_refused]
    · rw [exec_edge_late hu c hc, exec_edge_timestamp hu hd, andThen_next, andThen_refused]
      exact (exec_edge_late (hup ..) c hc).symm
    · rw [exec_edge_late hu d hd, exec_edge_timestamp hu hc, andThen_next, andThen_refused]
      exact exec_edge_late (hup ..) d hd
    · rw [exec_edge_timestamp hu hc, exec_edge_timestamp hu hd, andThen_next, andThen_next,
        exec_edge_timestamp (hup ..) hd, exec_edge_timestamp (hup ..) hc, setCap_cap_ne s _ hcd,
        setCap_cap_ne s _ hcd.symm, setCap_comm s hcd]
      rfl

/-! ### Several edges of one channel -/

/-- What a channel holds after edges at each timestamp in turn. -/
def CapChannel.edges (p : Params) : List Nat → CapChannel → CapChannel
  | [], ch      => ch
  | t :: ts, ch => CapChannel.edges p ts (ch.edge p t)

/-- Edges at timestamps in range complete, and write their channel only. -/
theorem edgeAll_timestamps (c : ChannelIndex) (ts : List Nat) (hu : s.up.cap = true)
    (hts : ∀ t ∈ ts, t ≤ s.params.counterMax) : edgeAll c ts s = .next (s.setCap c (s.cap[c].edges s.params ts)) := by
  induction ts generalizing s with
  | nil => exact congrArg Host.Outcome.next (setCap_getElem_self s c).symm
  | cons t ts ih =>
    obtain ⟨ht, hrest⟩ := List.forall_mem_cons.1 hts
    have hnext := ih (s := s.setCap c (s.cap[c].edge s.params t)) hu hrest
    rw [setCap_cap_self, setCap_setCap, setCap_params] at hnext
    rw [edgeAll, exec_edge_timestamp hu ht, andThen_next, hnext, CapChannel.edges]

/-- R212: the first period is measured by the second rising edge, and the falling edge between them, before which the
period is 0, publishes nothing (R205). -/
theorem reset_edges_three (p : Params) (r1 f1 r2 : Nat) :
    CapChannel.reset.edges p [r1, f1, r2] =
      ⟨r2, true, wrapsub p f1 r1, wrapsub p r2 r1, 0, false, .awaitingFalling, .falling⟩ := by
  simp only [CapChannel.edges]
  have hfirst : CapChannel.reset.edge p r1 = ⟨r1, true, 0, 0, 0, false, .awaitingFalling, .falling⟩ :=
    edge_rising p r1 rfl
  rw [hfirst, edge_falling_unpublished p f1 rfl rfl, edge_rising p r2 rfl]
  rfl

/-- Settles O19: after three edges the channel awaits a falling edge with the ticks between the rising ones as its period,
which is above 0 exactly when their timestamps differ. -/
theorem fourthEdgePublishesTheFirstSample : Obligations.FourthEdgePublishesTheFirstSample := by
  intro s c r1 f1 r2 f2 hu hreset hr1 hf1 hr2 hf2
  have hthree := edgeAll_timestamps c [r1, f1, r2] hu (by simp [hr1, hf1, hr2])
  rw [hreset, reset_edges_three] at hthree
  refine ⟨_, _, hthree, execEdge_next.2 ⟨hu, hf2, rfl⟩, setCap_cap_self .., ?_⟩
  have hpos : wrapsub s.params r2 r1 > 0 ↔ r1 ≠ r2 := wrapsub_pos_iff hr1
  rw [setCap_cap_self, setCap_cap_self, edge_falling _ _ rfl]
  refine ⟨rfl, rfl, ?_, fun heq => if_neg fun h => hpos.1 h heq⟩
  simp [hpos]

/-! ### SAMPLE_TAKE and INIT_CAPTURE -/

/-- A take after INIT_CAPTURE (R209). -/
theorem exec_sampleTake_up (hu : s.up.cap = true) (c : ChannelIndex) :
    exec (.sampleTake c) s = .next ((s.setCap c { s.cap[c] with sampleReady := false }).setReply
      (.sample s.cap[c].sampleReady s.cap[c].dutyValue)) :=
  execSampleTake_next.2 ⟨hu, rfl⟩

/-- A take that finds no sample writes no channel (R67). -/
theorem exec_sampleTake_empty (hu : s.up.cap = true) (hempty : s.cap[c].sampleReady = false) :
    exec (.sampleTake c) s = .next (s.setReply (.sample false s.cap[c].dutyValue)) := by
  have hsame : { s.cap[c] with sampleReady := false } = s.cap[c] := by rw [← hempty]
  rw [exec_sampleTake_up hu, hsame, setCap_getElem_self, hempty]

/-- Settles O20: the first take leaves the flag cleared, so the second finds no sample. -/
theorem sampleTakeReadsAndClears : Obligations.SampleTakeReadsAndClears := by
  intro s c hu
  refine ⟨_, _, exec_sampleTake_up hu c, exec_sampleTake_empty hu ?_, rfl, ?_⟩ <;>
    rw [setReply_cap, setCap_cap_self]
  rfl

/-- Settles O21. -/
theorem initCaptureSetsEveryChannel : Obligations.InitCaptureSetsEveryChannel :=
  fun _ => ⟨fun h => execInitCapture_next.2 ⟨h, rfl⟩, fun h => if_pos h⟩

end Sys2Proof.Machine
end

section
/-! SUPPORT. The requests of the dispatcher as equations (R242 to R253): the rows, each route, and what `exec` answers once
the checksum and the channel are known. -/

namespace Sys2Proof.Machine

variable {s : State} {i : Instr} {f : Frame} {c : ChannelIndex} {q : Quantity}
  {route : ChannelIndex → State → Result}

/-! ### The rows (R99, R253) -/

/-- The route of a GET or SET row, taken when the checksum and the channel are good. -/
inductive Routed (f : Frame) : Instr → (ChannelIndex → State → Result) → Prop where
  | getPwmInput    : Routed f (.getPwmInput f) (routeSample f)
  | getCurrent     : Routed f (.getCurrent f) (routeGetter .current f)
  | getTemperature : Routed f (.getTemperature f) (routeGetter .temperature f)
  | setCurrent     : Routed f (.setCurrent f) (routeSetter .current f)
  | setTemperature : Routed f (.setTemperature f) (routeSetter .temperature f)
  | setPwmInput    : Routed f (.setPwmInput f) fun _ t => .next (failRequest .invalidSignalForOperation f t)
  | getOther       : Routed f (.getOther f) fun _ t => .next (failRequest .invalidSignalForOperation f t)
  | setOther       : Routed f (.setOther f) fun _ t => .next (failRequest .invalidSignalForOperation f t)

/-- Every request row but PING and UNKNOWN_CMD is a GET or a SET. -/
theorem request_row (hf : requestFrame i = some f) : i = .ping f ∨ i = .unknownCmd f ∨ ∃ route, Routed f i route := by
  cases i <;> cases hf
  case ping => exact .inl rfl
  case unknownCmd => exact .inr (.inl rfl)
  all_goals exact .inr (.inr ⟨_, by constructor⟩)

/-- A GET or SET is the checksum, the channel and its route (R253). -/
theorem Routed.exec_eq (h : Routed f i route) (s : State) : exec i s = checked f (onChannel f route) s := by
  cases h <;> rfl

theorem checked_valid (hv : validate f = true) (m : State → Result) (s : State) : checked f m s = m s := if_pos hv

theorem exec_ping (hv : validate f = true) (s : State) :
    exec (.ping f) s = .next (respond (pingOkResponse s.params) s) :=
  if_pos hv

theorem exec_unknownCmd (hv : validate f = true) (s : State) :
    exec (.unknownCmd f) s = .next (failRequest .invalidSignalForOperation f s) :=
  if_pos hv

/-- On a channel 1 to 3 the route decides. -/
theorem Routed.exec_onChannel (h : Routed f i route) (hv : validate f = true)
    (hc : channelIndex s.params f.channel = some c) : exec i s = route c s := by
  rw [h.exec_eq, checked_valid hv]
  simp only [onChannel, hc]

/-- On no channel the route is not reached (R243). -/
theorem Routed.exec_noChannel (h : Routed f i route) (hv : validate f = true)
    (hc : channelIndex s.params f.channel = none) : exec i s = .next (failRequest .invalidChannel f s) := by
  rw [h.exec_eq, checked_valid hv]
  simp only [onChannel, hc]

/-! ### The routes (R245 to R249) -/

theorem routeSample_ready (hu : s.up.cap = true) (hr : s.cap[c].sampleReady = true) :
    routeSample f c s = .next (respond (getOkResponse s.params f.channel f.signal s.cap[c].dutyValue)
      (s.setCap c { s.cap[c] with sampleReady := false })) :=
  (if_pos hu).trans (if_pos hr)

/-- Without a sample the flag that is cleared was clear. -/
theorem routeSample_empty (hu : s.up.cap = true) (hr : s.cap[c].sampleReady = false) :
    routeSample f c s = .next (failRequest .unreadableSample f s) := by
  have hnone : ¬ (sampleTake c s).1.1 = true := Bool.eq_false_iff.1 hr
  refine (if_pos hu).trans ((if_neg hnone).trans ?_)
  rw [sampleTake, setCap_clear s c hr]

theorem routeGetter_value (h : s.sa.get q c ≠ sentinel) :
    routeGetter q f c s = .next (respond (getOkResponse s.params f.channel f.signal (s.sa.get q c))
      (s.emit (.saGet q c (s.sa.get q c)))) :=
  if_neg h

theorem routeGetter_sentinel (h : s.sa.get q c = sentinel) :
    routeGetter q f c s = .next (failRequest .invalidChannel f (s.emit (.saGet q c (s.sa.get q c)))) :=
  if_pos h

theorem routeSetter_refused (h : nextSetterAnswer q c f.value s = .refused) :
    routeSetter q f c s =
      .next (failRequest .invalidChannel f ((s.setEnv s.env.afterSetter).emit (.saSet q c f.value false))) := by
  simp [routeSetter, callSetter, h]

theorem routeSetter_stored {current temperature : Vector (Fin 1024) 3}
    (h : nextSetterAnswer q c f.value s = .stored current temperature) :
    routeSetter q f c s = .next (respond (setOkResponse s.params f.channel f.signal f.value)
      (((s.setEnv s.env.afterSetter).setSa (.ofPwm current temperature)).emit (.saSet q c f.value true))) := by
  simp [routeSetter, callSetter, h]

/-- The setter's answer is the environment's next one where its list has one (R259). -/
theorem nextSetterAnswer_of_head {v : U16} {a : SetterAnswer} (h : s.env.setterAnswers.head? = some a) :
    nextSetterAnswer q c v s = a := by
  obtain ⟨as, has⟩ := List.head?_eq_some_iff.1 h
  simp only [nextSetterAnswer, has]

/-! ### What each request answers -/

/-- Settles O39. -/
theorem pingAnswersTheVersion : Obligations.PingAnswersTheVersion :=
  fun s _ hv => ⟨_, exec_ping hv s, respond_answers (pingOkResponse s.params) s⟩

/-- Settles O40: the route takes the sample, or finds none. -/
theorem getPwmInputAnswersTheDuty : Obligations.GetPwmInputAnswersTheDuty := by
  intro s f c cmd hv hu hc hcmd
  rw [← getOkCommand_eq] at hcmd
  subst hcmd
  rw [Routed.getPwmInput.exec_onChannel hv hc]
  cases hr : s.cap[c].sampleReady with
  | true => exact ⟨_, routeSample_ready hu hr, fun _ => respond_answers _ _, nofun⟩
  | false => exact ⟨_, routeSample_empty hu hr, nofun, fun _ => failRequest_fails _ f s⟩

/-- A GET of a quantity on a channel 1 to 3: the getter's value, its sentinel an error (R246, R247). -/
theorem exec_getter (hrow : Routed f i (routeGetter q f)) (hv : validate f = true)
    (hc : channelIndex s.params f.channel = some c) :
    ∃ t, exec i s = .next t ∧
      (s.sa.get q c ≠ sentinel →
        Answers (getOkResponse s.params f.channel f.signal (s.sa.get q c)) (s.emit (.saGet q c (s.sa.get q c))) t) ∧
      (s.sa.get q c = sentinel → Fails .invalidChannel f (s.emit (.saGet q c (s.sa.get q c))) t) := by
  rw [hrow.exec_onChannel hv hc]
  by_cases h : s.sa.get q c = sentinel
  · exact ⟨_, routeGetter_sentinel h, fun hne => absurd h hne, fun _ => failRequest_fails _ _ _⟩
  · exact ⟨_, routeGetter_value h, fun _ => respond_answers _ _, fun he => absurd he h⟩

/-- Settles O41: both rows are routed to the getter of their quantity. -/
theorem getCurrentAndTemperatureAnswerTheGetter : Obligations.GetCurrentAndTemperatureAnswerTheGetter := by
  intro s f c q i v cmd hrow hv hc hcmd
  rw [← getOkCommand_eq] at hcmd
  subst hcmd
  obtain ⟨rfl, rfl, rfl⟩ | ⟨rfl, rfl, rfl⟩ := hrow
  · exact exec_getter .getCurrent hv hc
  · exact exec_getter .getTemperature hv hc

/-- Settles O42: both rows are routed to the setter of their quantity, and its answer decides. -/
theorem setCurrentAndTemperatureAnswerTheSetter : Obligations.SetCurrentAndTemperatureAnswerTheSetter := by
  intro s f c q i hrow hv hc
  have hroute : exec i s = routeSetter q f c s := by
    obtain ⟨rfl, rfl⟩ | ⟨rfl, rfl⟩ := hrow
    · exact Routed.setCurrent.exec_onChannel hv hc
    · exact Routed.setTemperature.exec_onChannel hv hc
  rw [hroute]
  refine ⟨nextSetterAnswer q c f.value s, ?_⟩
  cases ha : nextSetterAnswer q c f.value s with
  | refused =>
    exact ⟨_, routeSetter_refused ha, fun u hu => ha.symm.trans (nextSetterAnswer_of_head hu), nofun,
      fun _ => failRequest_fails _ _ _⟩
  | stored current temperature =>
    refine ⟨_, routeSetter_stored ha, fun u hu => ha.symm.trans (nextSetterAnswer_of_head hu), ?_, nofun⟩
    rintro _ _ ⟨⟩
    exact respond_answers _ _

/-- Settles O43: the three rows have one route, which fails; UNKNOWN_CMD fails without a look at the channel. -/
theorem unroutedRequestsFail : Obligations.UnroutedRequestsFail := by
  intro s f hv
  refine ⟨fun c i hc hi => ⟨failRequest .invalidSignalForOperation f s, ?_, failRequest_fails _ f s⟩,
    _, exec_unknownCmd hv s, failRequest_fails _ f s⟩
  obtain rfl | rfl | rfl := hi
  · exact Routed.setPwmInput.exec_onChannel hv hc
  · exact Routed.getOther.exec_onChannel hv hc
  · exact Routed.setOther.exec_onChannel hv hc

/-- Settles O44. -/
theorem wrongChecksumFailsFirst : Obligations.WrongChecksumFailsFirst :=
  fun s _ f hf hv => ⟨_, exec_wrongChecksum hf hv s, failRequest_fails _ f s⟩

/-- Settles O45: what is left beside PING and UNKNOWN_CMD is routed by its channel. -/
theorem getOrSetOfNoChannelFails : Obligations.GetOrSetOfNoChannelFails := by
  intro s i f hf hping hunknown hv hc
  obtain rfl | rfl | ⟨route, hrow⟩ := request_row hf
  · exact absurd rfl hping
  · exact absurd rfl hunknown
  · exact ⟨_, hrow.exec_noChannel hv hc, failRequest_fails _ f s⟩

end Sys2Proof.Machine
end

section
/-! SUPPORT. What every request has in common: it is answered once (R257), an error of its own leaves the registers alone
(R260), and it does not meet the receiver and the ring buffer (R262). -/

namespace Sys2Proof.Machine

variable {s t u : State} {i : Instr} {f : Frame}

/-! ### One answer (R257) -/

/-- What a request does before it answers transmits nothing. -/
theorem Prepared.sentCount (h : Prepared i f s u) : u.sentCount = s.sentCount := by
  obtain rfl | ⟨c, -, -, -, rfl⟩ | ⟨q, c, rfl⟩ | ⟨q, c, current, temperature, rfl⟩ := h <;>
    simp [State.sentCount, Output.isTx]

/-- What a request does before it fails transmits nothing. -/
theorem Harmless.sentCount (h : Harmless f s u) : u.sentCount = s.sentCount := by
  obtain rfl | ⟨q, c, rfl⟩ | ⟨q, c, rfl⟩ := h <;> simp [State.sentCount, Output.isTx]

/-- A request that completes has transmitted exactly one response (R253). -/
theorem request_sentCount (hf : requestFrame i = some f) (hx : exec i s = .next t) : t.sentCount = s.sentCount + 1 := by
  obtain ⟨r, u, rfl, hu⟩ | ⟨k, u, rfl, hu⟩ := request_cases hf hx
  · rw [respond_sentCount, hu.sentCount]
  · rw [failRequest_sentCount, hu.sentCount]

/-- After INIT_CAPTURE no route is refused. -/
theorem Routed.completes {route : ChannelIndex → State → Result} (h : Routed f i route) (hu : s.up.cap = true)
    (c : ChannelIndex) : ∃ t, route c s = .next t := by
  have getter (q : Quantity) : ∃ t, routeGetter q f c s = .next t := by
    by_cases hq : s.sa.get q c = sentinel
    · exact ⟨_, routeGetter_sentinel hq⟩
    · exact ⟨_, routeGetter_value hq⟩
  have setter (q : Quantity) : ∃ t, routeSetter q f c s = .next t := by
    cases ha : nextSetterAnswer q c f.value s with
    | refused => exact ⟨_, routeSetter_refused ha⟩
    | stored current temperature => exact ⟨_, routeSetter_stored ha⟩
  cases h with
  | getPwmInput =>
    cases hr : s.cap[c].sampleReady with
    | true => exact ⟨_, routeSample_ready hu hr⟩
    | false => exact ⟨_, routeSample_empty hu hr⟩
  | getCurrent | getTemperature => exact getter _
  | setCurrent | setTemperature => exact setter _
  | setPwmInput | getOther | setOther => exact ⟨_, rfl⟩

/-- After INIT_CAPTURE every request completes, whatever its checksum and its channel. -/
theorem request_completes (hf : requestFrame i = some f) (hu : s.up.cap = true) : ∃ t, exec i s = .next t := by
  cases hv : validate f with
  | false => exact ⟨_, exec_wrongChecksum hf hv s⟩
  | true =>
    obtain rfl | rfl | ⟨route, hrow⟩ := request_row hf
    · exact ⟨_, exec_ping hv s⟩
    · exact ⟨_, exec_unknownCmd hv s⟩
    · cases hc : channelIndex s.params f.channel with
      | none => exact ⟨_, hrow.exec_noChannel hv hc⟩
      | some c =>
        rw [hrow.exec_onChannel hv hc]
        exact hrow.completes hu c

/-- Settles O46. -/
theorem everyRequestIsAnsweredExactlyOnce : Obligations.EveryRequestIsAnsweredExactlyOnce := by
  intro s i f hf hu
  obtain ⟨t, hx⟩ := request_completes hf hu
  exact ⟨t, hx, request_sentCount hf hx⟩

/-! ### Errors (R260) -/

theorem SameRegisters.sa (h : SameRegisters s t) : t.sa = s.sa := by obtain ⟨_, _, _, rfl⟩ := h; rfl

/-- What a request has done when it fails is no write of a register. -/
theorem Harmless.sameRegisters (h : Harmless f s u) : SameRegisters s u := by
  obtain rfl | ⟨q, c, rfl⟩ | ⟨q, c, rfl⟩ := h
  · exact .refl _
  · exact sameRegisters_emit _ s
  · exact (sameRegisters_setEnv _ s).trans (sameRegisters_emit _ _)

/-- The sender reports nothing but a transmission that timed out (R287). -/
theorem errReport_mem_sentOutputs {p : Params} {r : Frame} {x : TxResult} {k : ErrorKind} {info : ReportInfo}
    (h : .errReport k info ∈ sentOutputs p r x) : k = .transmitTimeout := by
  cases x <;> simp_all [sentOutputs]

/-- What a request puts out before it answers is at most the record of a call, and no report. -/
theorem Prepared.trace (h : Prepared i f s u) :
    ∃ o, u.trace = s.trace ++ o ∧ ∀ k info, .errReport k info ∉ o := by
  obtain rfl | ⟨c, -, -, -, rfl⟩ | ⟨q, c, rfl⟩ | ⟨q, c, current, temperature, rfl⟩ := h
  · exact ⟨[], (List.append_nil _).symm, by simp⟩
  · exact ⟨[], (List.append_nil _).symm, by simp⟩
  · exact ⟨[.saGet q c (s.sa.get q c)], rfl, by simp⟩
  · exact ⟨[.saSet q c f.value true], rfl, by simp⟩

/-- A request that answers has reported nothing but a timeout of its answer. -/
theorem Prepared.respond_report {r : Frame} {new : List Output} {k : ErrorKind} {info : ReportInfo}
    (h : Prepared i f s u) (ht : (respond r u).trace = s.trace ++ new) (hk : .errReport k info ∈ new) :
    k = .transmitTimeout := by
  obtain ⟨o, ho, hno⟩ := h.trace
  rw [respond_eq, ho, List.append_assoc, List.append_cancel_left_eq] at ht
  rw [← ht, List.mem_append] at hk
  exact errReport_mem_sentOutputs (hk.resolve_left (hno k info))

/-- Settles O47: a request that answers makes no such report, and one that fails has written no register. -/
theorem errorPathsHaveNoSideEffect : Obligations.ErrorPathsHaveNoSideEffect := by
  intro s t i f new k hf hx ht hk hreport
  obtain ⟨r, u, rfl, hu⟩ | ⟨k', u, rfl, hu⟩ := request_cases hf hx
  · exact absurd (hu.respond_report ht hreport) hk
  · have hsame := hu.sameRegisters.trans (sameRegisters_failRequest k' f u)
    exact ⟨hsame.sa, hsame.cap, hsame.fifo, hsame.rx, hsame.cons⟩

/-! ### The receiver and the ring buffer (R262) -/

/-- `s` with another receiver and ring buffer: what the service of a request has nothing to do with (R44). -/
def State.withProducer (r : Receiver) (q : RingBuffer) (s : State) : State := { s with rx := r, fifo := q }

@[simp] theorem withProducer_params (r : Receiver) (q : RingBuffer) (s : State) :
    (s.withProducer r q).params = s.params := rfl
@[simp] theorem withProducer_up (r : Receiver) (q : RingBuffer) (s : State) : (s.withProducer r q).up = s.up := rfl

/-- A meaning that neither reads nor writes the receiver and the ring buffer: with others there it stops in the same way, or
completes with those others kept. -/
def IgnoresProducer (m : State → Result) : Prop :=
  ∀ r q s, m (s.withProducer r q) = andThen (m s) fun t => .next (t.withProducer r q)

/-- The sender reads and writes neither: two states that differ only there still do after a response. -/
theorem respond_withProducer (a : Frame) {r : Receiver} {q : RingBuffer} {u v : State} (h : v = u.withProducer r q) :
    (.next (respond a v) : Result) = andThen (.next (respond a u)) fun t => .next (t.withProducer r q) := by
  subst h
  simp only [respond_eq]
  rfl

/-- The same after a failure, a report and a response. -/
theorem failRequest_withProducer (k : ErrorKind) (f : Frame) {r : Receiver} {q : RingBuffer} {u v : State}
    (h : v = u.withProducer r q) :
    (.next (failRequest k f v) : Result) = andThen (.next (failRequest k f u)) fun t => .next (t.withProducer r q) := by
  subst h
  exact respond_withProducer _ rfl

theorem checked_ignoresProducer {m : State → Result} (hm : IgnoresProducer m) : IgnoresProducer (checked f m) := by
  intro r q s
  unfold checked
  split
  · exact hm r q s
  · exact failRequest_withProducer _ f rfl

theorem onChannel_ignoresProducer {route : ChannelIndex → State → Result} (h : ∀ c, IgnoresProducer (route c)) :
    IgnoresProducer (onChannel f route) := by
  intro r q s
  unfold onChannel
  rw [withProducer_params]
  cases channelIndex s.params f.channel with
  | none => exact failRequest_withProducer _ f rfl
  | some c => exact h c r q s

/-- The sample is taken from the capture engine (R245). -/
theorem routeSample_ignoresProducer (c : ChannelIndex) : IgnoresProducer (routeSample f c) := by
  intro r q s
  by_cases hu : s.up.cap = true
  · cases hr : s.cap[c].sampleReady with
    | true =>
      rw [routeSample_ready hu hr, routeSample_ready (s := s.withProducer r q) hu hr]
      exact respond_withProducer _ rfl
    | false =>
      rw [routeSample_empty hu hr, routeSample_empty (s := s.withProducer r q) hu hr]
      exact failRequest_withProducer _ f rfl
  · simp [routeSample, hu]

/-- The value is Signal Access's (R246, R247). -/
theorem routeGetter_ignoresProducer (q : Quantity) (c : ChannelIndex) : IgnoresProducer (routeGetter q f c) := by
  intro r b s
  by_cases hs : s.sa.get q c = sentinel
  · rw [routeGetter_sentinel hs, routeGetter_sentinel (s := s.withProducer r b) hs]
    exact failRequest_withProducer _ f rfl
  · rw [routeGetter_value hs, routeGetter_value (s := s.withProducer r b) hs]
    exact respond_withProducer _ rfl

/-- The answer is the environment's (R248, R249). -/
theorem routeSetter_ignoresProducer (q : Quantity) (c : ChannelIndex) : IgnoresProducer (routeSetter q f c) := by
  intro r b s
  cases ha : nextSetterAnswer q c f.value s with
  | refused =>
    rw [routeSetter_refused ha, routeSetter_refused (s := s.withProducer r b) ha]
    exact failRequest_withProducer _ f rfl
  | stored current temperature =>
    rw [routeSetter_stored ha, routeSetter_stored (s := s.withProducer r b) ha]
    exact respond_withProducer _ rfl

theorem Routed.ignoresProducer {route : ChannelIndex → State → Result} (h : Routed f i route) (c : ChannelIndex) :
    IgnoresProducer (route c) := by
  cases h with
  | getPwmInput => exact routeSample_ignoresProducer c
  | getCurrent | getTemperature => exact routeGetter_ignoresProducer _ c
  | setCurrent | setTemperature => exact routeSetter_ignoresProducer _ c
  | setPwmInput | getOther | setOther => exact fun _ _ _ => failRequest_withProducer _ f rfl

/-- No request row looks at the receiver or the ring buffer. -/
theorem request_ignoresProducer (hf : requestFrame i = some f) : IgnoresProducer (exec i) := by
  obtain rfl | rfl | ⟨route, hrow⟩ := request_row hf
  · exact checked_ignoresProducer fun _ _ _ => respond_withProducer _ rfl
  · exact checked_ignoresProducer fun _ _ _ => failRequest_withProducer _ f rfl
  · intro r q s
    rw [hrow.exec_eq, hrow.exec_eq]
    exact checked_ignoresProducer (onChannel_ignoresProducer hrow.ignoresProducer) r q s

/-- Settles O48: that a request keeps the receiver and the ring buffer it found is the same fact with these in place. -/
theorem serviceIgnoresReceiverAndRingBuffer : Obligations.ServiceIgnoresReceiverAndRingBuffer := by
  intro s t i f r q hf hx
  have swapped (r : Receiver) (q : RingBuffer) : exec i (s.withProducer r q) = .next (t.withProducer r q) := by
    rw [request_ignoresProducer hf r q s, hx, andThen_next]
  have own : t = t.withProducer s.rx s.fifo := Host.Outcome.next.inj (hx.symm.trans (swapped s.rx s.fifo))
  refine ⟨swapped r q, ?_⟩
  rw [own]
  exact ⟨rfl, rfl⟩

/-! ### Scenario S7 -/

/-- A SET that the setter stored leaves the stored values with the getters, and the parameters as they were (R248, R249). -/
theorem routeSetter_stored_leaves {p : Quantity} {c : ChannelIndex} {current temperature : Vector (Fin 1024) 3}
    (ha : nextSetterAnswer p c f.value s = .stored current temperature) (hx : routeSetter p f c s = .next t) :
    t.sa = .ofPwm current temperature ∧ t.params = s.params := by
  rw [routeSetter_stored ha] at hx
  obtain rfl := Host.Outcome.next.inj hx
  exact ⟨respond_sa .., respond_params ..⟩

/-- A GET of a quantity that Signal Access holds as a PWM value, which is below the sentinel (R246, R247). -/
theorem exec_getter_pwm {j : Instr} {g : Frame} {q : Quantity} {d : ChannelIndex} {v : U16} {n : Fin 1024}
    (hrow : Routed g j (routeGetter q g)) (hg : validate g = true) (hd : channelIndex t.params g.channel = some d)
    (hget : t.sa.get q d = BitVec.ofNat 16 n.val) (hn : v.toNat = n.val) :
    ∃ u, exec j t = .next u ∧
      Answers (getOkResponse t.params g.channel g.signal v) (t.emit (.saGet q d v)) u := by
  have hlt := n.isLt
  have hvalue : t.sa.get q d = v := by
    apply BitVec.eq_of_toNat_eq
    rw [hget, BitVec.toNat_ofNat, hn]
    omega
  have hne : v ≠ sentinel := by
    rintro rfl
    have hs : sentinel.toNat = 65535 := rfl
    omega
  obtain ⟨u, hx, hanswer, -⟩ := exec_getter hrow hg hd
  rw [hvalue] at hanswer
  exact ⟨u, hx, hanswer hne⟩

/-- Settles O50: the stored values are PWM values, so the GET answers the one of its quantity and channel. -/
theorem getAfterSetAnswersTheStoredValue : Obligations.GetAfterSetAnswersTheStoredValue := by
  intro s t f g c d cur temp i j p q v cmd hset hget hf hg hc hd ha hx hcmd
  have hroute : routeSetter p f c s = .next t := by
    obtain ⟨rfl, rfl⟩ | ⟨rfl, rfl⟩ := hset
    · rw [← Routed.setCurrent.exec_onChannel hf hc, hx]
    · rw [← Routed.setTemperature.exec_onChannel hf hc, hx]
  obtain ⟨hsa, hparams⟩ := routeSetter_stored_leaves ha hroute
  rw [← getOkCommand_eq] at hcmd
  subst hcmd
  rw [← hparams] at hd ⊢
  obtain ⟨rfl, rfl, hn⟩ | ⟨rfl, rfl, hn⟩ := hget
  · exact exec_getter_pwm .getCurrent hg hd (by rw [hsa, get_ofPwm]) hn
  · exact exec_getter_pwm .getTemperature hg hd (by rw [hsa, get_ofPwm]) hn

end Sys2Proof.Machine
end

section
/-! SUPPORT. Which instructions transmit (R262, R289), and the step that a response belongs to. -/

namespace Sys2Proof.Machine

variable {s t u : State} {i : Instr}

/-! ### How many responses an instruction transmits -/

theorem rearm_sentCount (s : State) : (rearm s).sentCount = s.sentCount := by
  simp [State.sentCount, rearm, Output.isTx]

theorem failReception_sentCount (k : ErrorKind) (s : State) : (failReception k s).sentCount = s.sentCount + 1 := by
  simp [failReception]

/-- The Complete processing transmits nothing when it enqueues the frame, and one error response otherwise (R145). -/
theorem completeFrame_sentCount (h : completeFrame s = .next t) :
    t.sentCount = s.sentCount ∨ t.sentCount = s.sentCount + 1 := by
  obtain ⟨-, -, -, rfl⟩ | ⟨-, -, -, rfl⟩ | ⟨-, rfl⟩ := completeFrame_cases h
  · exact .inl rfl
  · exact .inr (failReception_sentCount ..)
  · exact .inr (failReception_sentCount ..)

/-- A received byte transmits nothing, or one response when it ends a group of eight (R134). -/
theorem execRxByte_sentCount {b : Byte} (h : execRxByte b s = .next t) :
    t.sentCount = s.sentCount ∨
    (t.sentCount = s.sentCount + 1 ∧ s.rx.state = .accumulating ∧ s.rx.index = 7) := by
  obtain ⟨-, u, rfl, hu⟩ := execRxByte_cases h
  rw [rearm_sentCount]
  obtain ⟨-, -, rfl⟩ | ⟨-, -, rfl⟩ | ⟨-, -, rfl⟩ | ⟨hs, h7, v, hv, rfl⟩ := hu
  · exact .inl rfl
  · exact .inl rfl
  · exact .inl rfl
  · exact (completeFrame_sentCount hv).imp_right fun hsent => ⟨hsent, hs, h7⟩

theorem execDequeue_sentCount (h : execDequeue s = .next t) : t.sentCount = s.sentCount := by
  obtain ⟨-, ⟨-, -, rfl⟩ | ⟨-, -, rfl⟩ | ⟨-, rfl⟩ | ⟨-, rfl⟩ | ⟨-, rfl⟩⟩ := execDequeue_cases h <;> rfl

/-- The ports on which every operation transmits: the requests and the response rows (R99, R100). -/
def answerPorts : List Port := [.request, .rspGetOk, .rspSetOk, .rspPingOk, .rspError, .rspIsrError]

/-- An instruction that completes transmits nothing, or one response, and then it is a request, a response row or the byte
that ends a group. -/
theorem exec_sentCount (hx : exec i s = .next t) :
    t.sentCount = s.sentCount ∨
    (t.sentCount = s.sentCount + 1 ∧
      (i.port ∈ answerPorts ∨ (i.port = .rxByte ∧ s.rx.state = .accumulating ∧ s.rx.index = 7))) := by
  have replied {r : Reply} (e : (.next (s.setReply r) : Result) = .next t) : t.sentCount = s.sentCount :=
    Host.Outcome.next.inj e ▸ rfl
  cases i with
  | ping | getPwmInput | getCurrent | getTemperature | setCurrent | setTemperature | setPwmInput | getOther | setOther
  | unknownCmd => exact .inr ⟨request_sentCount rfl hx, .inl (by simp [Instr.port, answerPorts])⟩
  | rspGetOk | rspSetOk | rspPingOk | rspError | rspIsrError =>
    obtain rfl := Host.Outcome.next.inj hx
    exact .inr ⟨respond_sentCount .., .inl (by simp [Instr.port, answerPorts])⟩
  | rxByte b => exact (execRxByte_sentCount hx).imp_right fun ⟨hsent, hgroup⟩ => ⟨hsent, .inr ⟨rfl, hgroup⟩⟩
  | dequeue => exact .inl (execDequeue_sentCount hx)
  | cksum | validate | markersValid | frameValid | encodeFrame | decodeFrame | duty => exact .inl (replied hx)
  | wrapsub a b =>
    simp only [exec, execWrapsub] at hx
    split_ifs at hx
    exact .inl (replied hx)
  | enqueue f =>
    obtain ⟨-, ⟨-, rfl⟩ | ⟨-, rfl⟩⟩ := execEnqueue_cases hx <;> exact .inl rfl
  | edge c ts =>
    obtain ⟨-, -, rfl⟩ := execEdge_next.1 hx
    exact .inl rfl
  | sampleTake c =>
    obtain ⟨-, rfl⟩ := execSampleTake_next.1 hx
    exact .inl rfl
  | initRx =>
    obtain rfl := Host.Outcome.next.inj hx
    exact .inl (rearm_sentCount _)
  | initFifo =>
    obtain ⟨-, rfl⟩ := execInitFifo_next.1 hx
    exact .inl rfl
  | initCapture =>
    obtain ⟨-, rfl⟩ := execInitCapture_next.1 hx
    exact .inl rfl

/-! ### The step of a response -/

/-- A byte is delivered on the port of the receiver, alone (R103). -/
theorem decode_rxByte {p : Params} {w : PortWord} {i : Instr} (h : decode p w = .ok i) (hi : i.port = .rxByte) :
    ∃ b, w = ⟨.rxByte, [b]⟩ := by
  obtain ⟨port, bytes⟩ := w
  obtain rfl : port = .rxByte := (decode_port h).symm.trans hi
  match bytes with
  | [b] => exact ⟨b, rfl⟩
  | [] | _ :: _ :: _ => cases h

/-- The next turn is the consumer's only when no event is at the head of the inbox. -/
theorem Turn.no_event (h : Turn s u) (w : PortWord) (rest : List InboxItem) : s.env.inbox ≠ .event w :: rest := by
  cases h with
  | idle hin => simp [hin]
  | given _ hin => simp [hin]

/-- Taking the next turn transmits nothing. -/
theorem Turn.sentCount (h : Turn s u) : u.sentCount = s.sentCount := by
  cases h <;> rfl

/-- Settles O55: an event transmits what its instruction does (`exec_sentCount`), a micro-step of DEQUEUE nothing, and the
service of a frame the response of its request. -/
theorem transmitsOnlyInAnswer : Obligations.TransmitsOnlyInAnswer := by
  intro s t hstep
  obtain ⟨-, ⟨w, rest, i, hin, hdec, hx⟩ | ⟨u, hu, -, hx⟩ | ⟨u, f, v, hu, hp, -, hx, rfl⟩⟩ := step_cases hstep
  · obtain hsent | ⟨hsent, hport | ⟨hport, hs, h7⟩⟩ := exec_sentCount hx
    · exact .inl hsent
    · rw [decode_port hdec] at hport
      exact .inr ⟨hsent, .inr (.inr ⟨w, rest, hin, by simpa [answerPorts] using hport⟩)⟩
    · obtain ⟨b, rfl⟩ := decode_rxByte hdec hport
      exact .inr ⟨hsent, .inr (.inl ⟨hs, h7, b, rest, hin⟩)⟩
  · exact .inl ((execDequeue_sentCount hx).trans hu.sentCount)
  · have hsent : v.sentCount = u.sentCount + 1 := request_sentCount (requestFrame_requestOf _ f) hx
    refine .inr ⟨hsent.trans (by rw [hu.sentCount]), .inl ⟨?_, hu.no_event⟩⟩
    rw [← hu.sameRegisters.cons, hp]

end Sys2Proof.Machine
end

section
/-! SUPPORT. The consumer without events: each of its steps brings the drain one step nearer its end and leaves the number
of responses owed as it is (R241, R257, R261). -/

namespace Sys2Proof.Machine

variable {s t u : State} {i : Instr} {f : Frame}

/-! ### What a request leaves alone -/

theorem Prepared.inbox (h : Prepared i f s u) : u.env.inbox = s.env.inbox := by
  obtain rfl | ⟨c, -, -, -, rfl⟩ | ⟨q, c, rfl⟩ | ⟨q, c, current, temperature, rfl⟩ := h <;> rfl

theorem Harmless.inbox (h : Harmless f s u) : u.env.inbox = s.env.inbox := by
  obtain rfl | ⟨q, c, rfl⟩ | ⟨q, c, rfl⟩ := h <;> rfl

/-- A request draws from the environment, but takes no event. -/
theorem request_inbox (hf : requestFrame i = some f) (hx : exec i s = .next t) : t.env.inbox = s.env.inbox := by
  obtain ⟨r, u, rfl, hu⟩ | ⟨k, u, rfl, hu⟩ := request_cases hf hx
  · rw [respond_env]
    exact hu.inbox
  · rw [failRequest_eq]
    exact hu.inbox

theorem request_fifo (hf : requestFrame i = some f) (hx : exec i s = .next t) : t.fifo = s.fifo := by
  obtain ⟨-, -, hfifo⟩ := serviceIgnoresReceiverAndRingBuffer s t i f s.rx s.fifo hf hx
  exact hfifo

/-! ### The drain -/

/-- How many steps the consumer needs, without events, until the buffer is empty and it is Idle: five for each frame, of which
the phase says how many are done, and one for the test that finds the buffer empty. -/
def Phase.drainSteps (count : Nat) : Phase → Nat
  | .idle    => if count = 0 then 0 else 5 * count + 1
  | .deq1    => 5 * count + 1
  | .deq2    => 5 * count
  | .deq3    => 5 * count - 1
  | .deq4    => 5 * count - 2
  | .service => 5 * count + 2

theorem drainSteps_le (p : Phase) (count : Nat) : p.drainSteps count ≤ 5 * count + 2 := by
  cases p with
  | idle => simp only [Phase.drainSteps]; split <;> omega
  | deq1 | deq2 | deq3 | deq4 | service => simp only [Phase.drainSteps]; omega

/-- The steps the consumer has before it. -/
def State.drainSteps (s : State) : Nat := s.cons.phase.drainSteps s.fifo.count

theorem drainSteps_eq {p : Phase} (hp : s.cons.phase = p) : s.drainSteps = p.drainSteps s.fifo.count := by
  rw [State.drainSteps, hp]

/-- The responses transmitted, and one for each frame that is still counted or in service (R257). -/
def State.answersDue (s : State) : Nat :=
  s.sentCount + s.fifo.count + (if s.cons.phase = .service then 1 else 0)

/-- One step of the drain. -/
structure DrainStep (s t : State) : Prop where
  inbox : t.env.inbox = s.env.inbox
  steps : s.drainSteps = t.drainSteps + 1
  due   : t.answersDue = s.answersDue

/-- A micro-step of DEQUEUE, unless the consumer is Idle with nothing to do. -/
theorem drain_dequeue (h : s.Inv) (hs : s.cons.phase ≠ .service) (h0 : s.drainSteps ≠ 0) :
    ∃ t, exec .dequeue s = .next t ∧ DrainStep s t := by
  have hinside (hp : s.cons.phase.insideDequeue = true) : 1 ≤ s.fifo.count := h.fifo.2.1 hp
  have found (hp : s.cons.phase = .idle ∨ s.cons.phase = .deq1) (hc : s.fifo.count > 0) :
      ∃ t, exec .dequeue s = .next t ∧ DrainStep s t := by
    refine ⟨_, exec_dequeue_nonempty h.fifoUp hp hc, rfl, ?_, ?_⟩
    · obtain hp | hp := hp <;> simp [State.drainSteps, Phase.drainSteps, hp, Nat.ne_of_gt hc]
    · simp [State.answersDue, State.sentCount, hs]
  cases hp : s.cons.phase with
  | idle =>
    refine found (.inl hp) (Nat.pos_of_ne_zero fun hc => h0 ?_)
    simp [drainSteps_eq hp, Phase.drainSteps, hc]
  | deq1 =>
    obtain hc | hc := Nat.eq_zero_or_pos s.fifo.count
    · refine ⟨_, exec_dequeue_empty h.fifoUp (.inr hp) hc, rfl, ?_, ?_⟩
      · simp [State.drainSteps, Phase.drainSteps, hp, hc]
      · simp [State.answersDue, State.sentCount, hs]
    · exact found (.inr hp) hc
  | deq2 =>
    have hpos := hinside (by rw [hp]; rfl)
    refine ⟨_, exec_dequeue_read h.fifoUp hp, rfl, ?_, ?_⟩
    · simp only [State.drainSteps, Phase.drainSteps, hp, dequeueRead, setCons_cons, setCons_fifo]
      omega
    · simp [State.answersDue, State.sentCount, hs, dequeueRead]
  | deq3 =>
    have hpos := hinside (by rw [hp]; rfl)
    refine ⟨_, exec_dequeue_advance h.fifoUp hp, rfl, ?_, ?_⟩
    · simp only [State.drainSteps, Phase.drainSteps, hp, dequeueAdvance, setCons_cons, setCons_fifo, setFifo_fifo]
      omega
    · simp [State.answersDue, State.sentCount, hs, dequeueAdvance]
  | deq4 =>
    have hpos := hinside (by rw [hp]; rfl)
    refine ⟨_, exec_dequeue_release h.fifoUp hp, rfl, ?_, ?_⟩
    · simp only [State.drainSteps, Phase.drainSteps, hp, dequeueRelease, setReply_cons, setReply_fifo, setCons_cons,
        setCons_fifo, setFifo_fifo]
      omega
    · simp only [State.answersDue, State.sentCount, hp, dequeueRelease, setReply_cons, setReply_fifo, setReply_trace,
        setCons_cons, setCons_fifo, setCons_trace, setFifo_fifo, setFifo_trace, reduceCtorEq, if_true, if_false]
      omega
  | service => exact absurd hp hs

/-- The service of a frame answers it (R257) and goes on with the next DEQUEUE (R261). -/
theorem drain_service (hs : s.cons.phase = .service) (hx : exec (requestOf s.params f) s = .next t) :
    DrainStep s (retire t) := by
  have hf := requestFrame_requestOf s.params f
  have hcount : (retire t).fifo.count = s.fifo.count := congrArg RingBuffer.count (request_fifo (t := t) hf hx)
  have hsent : (retire t).sentCount = s.sentCount + 1 := request_sentCount (t := t) hf hx
  have hp : (retire t).cons.phase = .deq1 := rfl
  refine ⟨request_inbox (t := t) hf hx, ?_, ?_⟩
  · rw [drainSteps_eq hs, drainSteps_eq hp, hcount]
    rfl
  · simp only [State.answersDue, hcount, hsent, hp, hs, reduceCtorEq, if_true, if_false]
    omega

/-- Without events the next step is one of the drain, until it is over (R241). -/
theorem step_drain (h : s.Inv) (hin : s.env.inbox = []) (h0 : s.drainSteps ≠ 0) :
    ∃ t, step s = .next t ∧ DrainStep s t := by
  by_cases hs : s.cons.phase = .service
  · obtain ⟨f, hf⟩ := Option.isSome_iff_exists.1 ((consInv_service hs).1 h.cons)
    have hcons : s.cons = ⟨.service, some f⟩ := by rw [← hs, ← hf]
    obtain ⟨t, hx⟩ := request_completes (s := s) (requestFrame_requestOf s.params f) h.capUp
    refine ⟨retire t, ?_, drain_service hs hx⟩
    rw [step_service h.params hin hcons, hx, andThen_next]
  · obtain ⟨t, hx, hd⟩ := drain_dequeue h hs h0
    exact ⟨t, (step_dequeue h.params hin hs).trans hx, hd⟩

/-- When no step is left the buffer is empty and the consumer Idle: a frame inside a DEQUEUE is still counted (R29). -/
theorem drained_of_drainSteps (h : s.Inv) (h0 : s.drainSteps = 0) : s.fifo.count = 0 ∧ s.cons = ⟨.idle, none⟩ := by
  have hinside (hp : s.cons.phase.insideDequeue = true) : 1 ≤ s.fifo.count := h.fifo.2.1 hp
  cases hp : s.cons.phase with
  | idle =>
    have hc : s.fifo.count = 0 := by simpa [drainSteps_eq hp, Phase.drainSteps] using h0
    have hframe := (consInv_none (.inl hp)).1 h.cons
    exact ⟨hc, by rw [← hp, ← hframe]⟩
  | deq1 | service => simp [drainSteps_eq hp, Phase.drainSteps] at h0
  | deq2 | deq3 | deq4 =>
    have hpos := hinside (by rw [hp]; rfl)
    simp only [drainSteps_eq hp, Phase.drainSteps] at h0
    omega

/-- The drain takes the steps counted and transmits the responses due. -/
theorem run_drain (h : s.Inv) (hin : s.env.inbox = []) :
    ∃ t, Host.Core.run Sys2Proof.core s.drainSteps s = .next t ∧
      t.fifo.count = 0 ∧ t.cons = ⟨.idle, none⟩ ∧ t.answersDue = s.answersDue := by
  induction hn : s.drainSteps generalizing s with
  | zero =>
    obtain ⟨hc, hk⟩ := drained_of_drainSteps h hn
    exact ⟨s, rfl, hc, hk, rfl⟩
  | succ n ih =>
    obtain ⟨u, hstep, hd⟩ := step_drain h hin (by omega)
    have hu := everyStepKeepsTheInvariant s u h hstep
    obtain ⟨t, hrun, hc, hk, hdue⟩ := ih hu (hd.inbox.trans hin) (by have := hd.steps; omega)
    exact ⟨t, (run_next n hstep).trans hrun, hc, hk, hdue.trans hd.due⟩

/-- Settles O54: of the responses due at the end none is left, as the buffer is empty and the consumer Idle. -/
theorem drainAnswersEveryFrame : Obligations.DrainAnswersEveryFrame := by
  intro s h hin
  obtain ⟨t, hrun, hc, hk, hdue⟩ := run_drain h hin
  refine ⟨s.drainSteps, t, drainSteps_le _ _, hrun, hc, hk, ?_⟩
  simpa [State.answersDue, hc, hk] using hdue

end Sys2Proof.Machine
end

section
/-! SUPPORT. Progress: what completes under the invariant (R291, R338), and that no instruction faults. The faults of the
model stand for states that R21, R22 and R241 exclude. -/

namespace Sys2Proof.Machine

variable {s u : State} {i : Instr}

/-- A meaning that completes does not fault. -/
theorem ne_fault_of_next {r : Result} (h : ∃ t, r = .next t) (e : Fault) : r ≠ .fault e := by
  obtain ⟨t, rfl⟩ := h
  nofun

/-! ### A received byte -/

/-- After INIT_FIFO the Complete processing is never refused (R135, R136, R137). -/
theorem completeFrame_completes (hu : s.up.fifo = true) : ∃ t, completeFrame s = .next t := by
  by_cases hm : s.rx.buf[0] = s.params.startMarker ∧ s.rx.buf[7] = s.params.endMarker
  · rw [completeFrame_marked hm, if_pos hu]
    split
    · exact ⟨_, rfl⟩
    · exact ⟨_, rfl⟩
  · exact ⟨_, completeFrame_malformed hm⟩

/-- Under the invariant RX_BYTE takes one of the four transitions of R143: the receiver is never Complete between steps, nor
Accumulating beyond index 7 (R21, R22). -/
theorem exec_rxByte_completes (h : s.Inv) (b : Byte) : ∃ t, exec (.rxByte b) s = .next t := by
  obtain ⟨hs, -⟩ | ⟨hs, -, hi, -⟩ := h.rx
  · by_cases hb : b = s.params.startMarker
    · exact ⟨_, startMarkerBeginsAFrame s b h.armed hs hb⟩
    · exact ⟨_, byteOutsideAFrameIsDiscarded s b h.armed hs hb⟩
  · obtain hi | h7 := Nat.le_or_eq_of_le_succ hi
    · exact ⟨_, byteInsideAFrameIsStored s b _ hi h.armed hs rfl⟩
    · obtain ⟨t, ht⟩ := completeFrame_completes (s := s.setRx ⟨.complete, 8, s.rx.buf.set 7 b, false⟩) h.fifoUp
      rw [exec_rxByte_eighth h.armed hs h7, ht]
      exact ⟨_, rfl⟩

/-! ### The ring buffer -/

theorem exec_enqueue_completes (h : s.Inv) (f : Frame) : ∃ t, exec (.enqueue f) s = .next t := by
  obtain hc | hc := Nat.lt_or_eq_of_le h.fifo.1
  · exact ⟨_, exec_enqueue_room h.fifoUp hc f⟩
  · exact ⟨_, exec_enqueue_full h.fifoUp hc f⟩

/-- Outside a service DEQUEUE always has its next micro-step (R165). -/
theorem exec_dequeue_completes (hu : s.up.fifo = true) (hs : s.cons.phase ≠ .service) :
    ∃ t, exec .dequeue s = .next t := by
  cases hp : s.cons.phase with
  | idle    => exact ⟨_, exec_dequeue_test hu (.inl hp)⟩
  | deq1    => exact ⟨_, exec_dequeue_test hu (.inr hp)⟩
  | deq2    => exact ⟨_, exec_dequeue_read hu hp⟩
  | deq3    => exact ⟨_, exec_dequeue_advance hu hp⟩
  | deq4    => exact ⟨_, exec_dequeue_release hu hp⟩
  | service => exact absurd hp hs

/-! ### Every instruction -/

/-- Under the invariant an instruction completes or is refused: only RX_BYTE can fault, and it completes. -/
theorem exec_ne_fault (h : s.Inv) (i : Instr) (e : Fault) : exec i s ≠ .fault e := by
  cases i with
  | ping | getPwmInput | getCurrent | getTemperature | setCurrent | setTemperature | setPwmInput | getOther | setOther
  | unknownCmd => exact ne_fault_of_next (request_completes rfl h.capUp) e
  | rspGetOk | rspSetOk | rspPingOk | rspError | rspIsrError => exact ne_fault_of_next ⟨_, rfl⟩ e
  | cksum | validate | markersValid | frameValid | encodeFrame | decodeFrame | duty | initRx =>
    exact ne_fault_of_next ⟨_, rfl⟩ e
  | rxByte b => exact ne_fault_of_next (exec_rxByte_completes h b) e
  | enqueue f => exact ne_fault_of_next (exec_enqueue_completes h f) e
  | dequeue =>
    by_cases hs : s.cons.phase = .service
    · rw [exec_dequeue_service h.fifoUp hs]
      nofun
    · exact ne_fault_of_next (exec_dequeue_completes h.fifoUp hs) e
  | edge c ts =>
    obtain hts | hts := Nat.lt_or_ge s.params.counterMax ts
    · rw [exec_edge_late h.capUp c hts]
      nofun
    · exact ne_fault_of_next ⟨_, exec_edge_timestamp h.capUp hts c⟩ e
  | wrapsub a b =>
    by_cases hab : a > s.params.counterMax ∨ b > s.params.counterMax
    · rw [exec_wrapsub_outOfRange hab]
      nofun
    · exact ne_fault_of_next ⟨_, exec_wrapsub_timestamps (by omega) (by omega)⟩ e
  | sampleTake c => exact ne_fault_of_next ⟨_, exec_sampleTake_up h.capUp c⟩ e
  | initFifo =>
    cases hp : s.cons.phase.insideDequeue with
    | false => exact ne_fault_of_next ⟨_, execInitFifo_next.2 ⟨hp, rfl⟩⟩ e
    | true =>
      have hrefused : exec .initFifo s = .refused .initFifoInsideDequeue := if_pos hp
      rw [hrefused]
      nofun
  | initCapture =>
    obtain ⟨hset, hzero⟩ := initCaptureSetsEveryChannel s
    by_cases hm : s.env.counterMax = 0
    · rw [hzero hm]
      nofun
    · exact ne_fault_of_next ⟨_, hset hm⟩ e

/-! ### Steps -/

/-- The consumer is fetched to service its frame (R241). -/
theorem fetchConsumer_service {f : Frame} (hp : s.cons.phase = .service) (hf : s.cons.frame = some f) :
    fetchConsumer s = .service (requestOf s.params f) s := by
  simp only [fetchConsumer, hp, hf]

/-- Outside a service the consumer is fetched for a micro-step of DEQUEUE (R241). -/
theorem fetchConsumer_dequeue (hp : s.cons.phase ≠ .service) : fetchConsumer s = .run .dequeue s := by
  cases hphase : s.cons.phase with
  | service => exact absurd hphase hp
  | idle | deq1 | deq2 | deq3 | deq4 => simp only [fetchConsumer, hphase]

/-- The consumer's turn completes: in a service it holds a frame (R39), whose request is answered or fails (R257). -/
theorem Turn.step_completes (hu : Turn s u) (h : s.Inv) : ∃ t, step s = .next t := by
  have hinv : u.Inv := hu.sameRegisters.inv h
  rw [step_of_valid h.params, fetch_turn hu]
  by_cases hs : u.cons.phase = .service
  · obtain ⟨f, hf⟩ := Option.isSome_iff_exists.1 ((consInv_service hs).1 hinv.cons)
    obtain ⟨t, hx⟩ := request_completes (s := u) (requestFrame_requestOf u.params f) hinv.capUp
    refine ⟨retire t, ?_⟩
    rw [fetchConsumer_service hs hf, runFetched, hx, andThen_next]
  · rw [fetchConsumer_dequeue hs]
    exact exec_dequeue_completes hinv.fifoUp hs

/-- An event that decodes completes when its instruction does, in the state with the rest of the inbox. -/
theorem step_event_completes {w : PortWord} {rest : List InboxItem} (h : s.Inv) (hin : s.env.inbox = .event w :: rest)
    (hdec : decode s.params w = .ok i) (hx : ∃ t, exec i (s.setInbox rest) = .next t) : ∃ t, step s = .next t := by
  rw [step_of_valid h.params, fetch_event hin hdec]
  exact hx

/-- An event runs its instruction, which does not fault, or is no operation and is refused. -/
theorem step_event_ne_fault {w : PortWord} {rest : List InboxItem} (h : s.Inv)
    (hin : s.env.inbox = .event w :: rest) (e : Fault) : step s ≠ .fault e := by
  rw [step_of_valid h.params]
  cases hdec : decode s.params w with
  | ok i =>
    rw [fetch_event hin hdec]
    exact exec_ne_fault ((sameRegisters_setInbox rest s).inv h) i e
  | error d =>
    have hfetch : fetch s = .undecodable d := by simp only [fetch, hin, hdec]
    rw [hfetch]
    nofun

/-- Under the invariant no step faults, whatever is at the head of the inbox. -/
theorem step_ne_fault (h : s.Inv) (e : Fault) : step s ≠ .fault e := by
  cases hin : s.env.inbox with
  | nil => exact ne_fault_of_next ((Turn.idle hin).step_completes h) e
  | cons item rest =>
    cases item with
    | turn    => exact ne_fault_of_next ((Turn.given rest hin).step_completes h) e
    | event w => exact step_event_ne_fault h hin e

/-- Settles O53: a turn of the consumer, a byte and an edge in range complete in every state of the invariant, which taking
the event from the inbox keeps. -/
theorem noFatalCondition : Obligations.NoFatalCondition := by
  intro s h
  have taken (rest : List InboxItem) : (s.setInbox rest).Inv := (sameRegisters_setInbox rest s).inv h
  refine ⟨step_ne_fault h, fun hin => (Turn.idle hin).step_completes h,
    fun rest hin => (Turn.given rest hin).step_completes h, fun b rest hin => ?_, fun w c ts rest hin hdec hts => ?_⟩
  · exact step_event_completes h hin rfl (exec_rxByte_completes (taken rest) b)
  · exact step_event_completes h hin hdec ⟨_, exec_edge_timestamp (taken rest).capUp hts c⟩

end Sys2Proof.Machine
end

section
/-! SUPPORT. The bring-up (R322): INIT_FIFO, INIT_CAPTURE and INIT_RX in this order. -/

namespace Sys2Proof.Machine

variable {s : State}

/-- Outside a DEQUEUE, INIT_FIFO completes with the reset ring buffer (R173, U8). -/
theorem exec_initFifo_outsideDequeue (hp : s.cons.phase.insideDequeue = false) :
    exec .initFifo s = .next ((s.setFifo RingBuffer.reset).setUp { s.up with fifo := true }) :=
  execInitFifo_next.2 ⟨hp, rfl⟩

/-- Settles O56: INIT_FIFO leaves the environment as it was, so INIT_CAPTURE still reads a maximum above 0 (R210), and
INIT_RX then completes in every state (R142). -/
theorem bringUpReachesTheResetTable : Obligations.BringUpReachesTheResetTable := by
  intro s hp hm
  rw [exec_initFifo_outsideDequeue hp, andThen_next, (initCaptureSetsEveryChannel _).1, andThen_next]
  · exact initRxArmsReception _
  · show s.env.counterMax ≠ 0
    omega

end Sys2Proof.Machine
end

section
/-! SUPPORT. The consumer's turn (R241, R261), whether the inbox gives it or is empty (entry 3): the step is a micro-step of
DEQUEUE, or the service of the frame and its retirement. -/

namespace Sys2Proof.Machine

variable {s u : State}

theorem turn_iff :
    Turn s u ↔ (s.env.inbox = [] ∧ u = s) ∨ ∃ rest, s.env.inbox = .turn :: rest ∧ u = s.setInbox rest := by
  constructor
  · rintro (hin | ⟨rest, hin⟩)
    · exact .inl ⟨hin, rfl⟩
    · exact .inr ⟨rest, hin, rfl⟩
  · rintro (⟨hin, rfl⟩ | ⟨rest, hin, rfl⟩)
    · exact .idle hin
    · exact .given rest hin

theorem Turn.step_dequeue (hu : Turn s u) (hv : s.params.valid = true) (hp : s.cons.phase ≠ .service) :
    step s = exec .dequeue u := by
  rw [← hu.sameRegisters.cons] at hp
  rw [step_of_valid hv, fetch_turn hu, fetchConsumer_dequeue hp, runFetched]

theorem Turn.step_service {f : Frame} (hu : Turn s u) (hv : s.params.valid = true) (hp : s.cons.phase = .service)
    (hf : s.cons.frame = some f) :
    step s = andThen (exec (requestOf s.params f) u) fun t => .next (retire t) := by
  rw [← hu.sameRegisters.cons] at hp hf
  rw [step_of_valid hv, fetch_turn hu, fetchConsumer_service hp hf, runFetched,
    hu.sameRegisters.params]

/-- Settles O8: outside a service the step is a micro-step of DEQUEUE; in a service the outcome of the request decides
whether the frame is retired (R261) or the refusal is the step's. -/
theorem stepRunsTheConsumersTurn : Obligations.StepRunsTheConsumersTurn := by
  intro s u hv hturn
  have hu : Turn s u := turn_iff.2 hturn
  refine ⟨hu.step_dequeue hv, fun f hp hf => ⟨fun t hx => ?_, fun e hx => ?_⟩⟩
  · rw [hu.step_service hv hp hf, hx, andThen_next]
    rfl
  · rw [hu.step_service hv hp hf, hx, andThen_refused]

end Sys2Proof.Machine
end
